-- ==== Sys2Proof/Word.lean ====
section
/-! DEFINITION. The words of FCD: octets, command words, Unicode scalar values (00_scope.md R9, R10; 30_encoding.md R80). -/

namespace Sys2Proof

/-- An octet (R10). -/
abbrev Byte := BitVec 8

/-- A command word as the host writes it to `CMD` (R80). -/
abbrev CommandWord := BitVec 16

/-- A Unicode scalar value, in the 21 bits that 0x10FFFF needs (42_tlv_station_info.md R163, R165). -/
abbrev Scalar := BitVec 21

end Sys2Proof
end

