-- ==== Sys2Proof/Syntax.lean ====
section
/-! DEFINITION. The 28 operations of FCD (30_encoding.md R84), one constructor per row of the opcode table. -/

namespace Sys2Proof

/-- An operation. Format K operations carry the argument byte `k` as it stands in the command word; WellFormed.lean
says which values the encoding admits (R81). -/
inductive Instr where
  | nop
  | clrs
  | rst
  | skip (n : BitVec 8)
  | fcdec
  | fcenc
  | stdec
  | stenc
  | scdec
  | scenc
  | scnew
  | scset
  | macdec (k : BitVec 8)
  | macenc (k : BitVec 8)
  | capdec
  | capenc
  | tlvdec
  | tlvenc
  | ratek
  | krate
  | mhdec
  | mhenc
  | dhctx
  | dhdec
  | dhenc
  | disp
  | gsel
  | parse
  deriving DecidableEq, Repr

end Sys2Proof
end

