-- ==== Sys2Proof/WellFormed.lean ====
section
/-! DEFINITION. Which operations the encoding admits (30_encoding.md R81, R82). -/

namespace Sys2Proof

/-- Format K: the argument selects one of `A1` to `A4` (R81). -/
def addrArgOk (k : BitVec 8) : Bool := k == 1 || k == 2 || k == 3 || k == 4

/-- The operations a command word can select: all arguments of formats N and B, 1 to 4 in format K (R81). -/
def Instr.wellFormed : Instr → Bool
  | .macdec k => addrArgOk k
  | .macenc k => addrArgOk k
  | .nop | .clrs | .rst | .skip _ | .fcdec | .fcenc | .stdec | .stenc | .scdec | .scenc | .scnew | .scset
  | .capdec | .capenc | .tlvdec | .tlvenc | .ratek | .krate | .mhdec | .mhenc | .dhctx | .dhdec | .dhenc
  | .disp | .gsel | .parse => true

end Sys2Proof
end

