-- ==== Sys2Proof/Decode.lean ====
section
/-! DEFINITION. The command decoder (30_encoding.md R80 to R85) and, after it, the encoder. -/

namespace Sys2Proof

/-- The three formats (R81): no argument, address register select, byte count. -/
inductive Format where
  | N
  | K
  | B
  deriving DecidableEq, Repr

/-- Why a command word selects no operation (R82, R85). -/
inductive DecodeError where
  /-- no row of R84 has this opcode -/
  | unassignedOpcode
  /-- a format N word whose argument is not 0 -/
  | argumentNotZero
  /-- a format K word whose argument is not 1, 2, 3 or 4 -/
  | noSuchAddressRegister
  deriving DecidableEq, Repr

/-- One row of the opcode map (R84). -/
structure Row where
  opcode : BitVec 8
  format : Format
  instr : BitVec 8 → Instr

/-- The opcode field, bits 7:0 (R80). -/
def opcodeField (w : CommandWord) : BitVec 8 := w.extractLsb' 0 8

/-- The argument field, bits 15:8 (R80). -/
def argField (w : CommandWord) : BitVec 8 := w.extractLsb' 8 8

/-- The opcode map (R84). -/
def opcodeMap : List Row :=
  [ ⟨0x00, .N, fun _ => .nop⟩,
    ⟨0x01, .N, fun _ => .clrs⟩,
    ⟨0x02, .N, fun _ => .rst⟩,
    ⟨0x03, .B, fun n => .skip n⟩,
    ⟨0x10, .N, fun _ => .fcdec⟩,
    ⟨0x11, .N, fun _ => .fcenc⟩,
    ⟨0x12, .N, fun _ => .stdec⟩,
    ⟨0x13, .N, fun _ => .stenc⟩,
    ⟨0x20, .N, fun _ => .scdec⟩,
    ⟨0x21, .N, fun _ => .scenc⟩,
    ⟨0x22, .N, fun _ => .scnew⟩,
    ⟨0x23, .N, fun _ => .scset⟩,
    ⟨0x24, .K, fun k => .macdec k⟩,
    ⟨0x25, .K, fun k => .macenc k⟩,
    ⟨0x26, .N, fun _ => .capdec⟩,
    ⟨0x27, .N, fun _ => .capenc⟩,
    ⟨0x30, .N, fun _ => .tlvdec⟩,
    ⟨0x31, .N, fun _ => .tlvenc⟩,
    ⟨0x32, .N, fun _ => .ratek⟩,
    ⟨0x33, .N, fun _ => .krate⟩,
    ⟨0x40, .N, fun _ => .mhdec⟩,
    ⟨0x41, .N, fun _ => .mhenc⟩,
    ⟨0x42, .N, fun _ => .dhctx⟩,
    ⟨0x43, .N, fun _ => .dhdec⟩,
    ⟨0x44, .N, fun _ => .dhenc⟩,
    ⟨0x50, .N, fun _ => .disp⟩,
    ⟨0x51, .N, fun _ => .gsel⟩,
    ⟨0x52, .N, fun _ => .parse⟩ ]

/-- What a row makes of an argument, in the order of checks of R82. -/
def Row.select (r : Row) (arg : BitVec 8) : Except DecodeError Instr :=
  match r.format with
  | .N => if arg = 0 then .ok (r.instr arg) else .error .argumentNotZero
  | .K => if addrArgOk arg then .ok (r.instr arg) else .error .noSuchAddressRegister
  | .B => .ok (r.instr arg)

/-- Decoding a command word, total (R82). -/
def decode (w : CommandWord) : Except DecodeError Instr :=
  match opcodeMap.find? (fun r => r.opcode == opcodeField w) with
  | none => .error .unassignedOpcode
  | some r => r.select (argField w)

/-- The decoder's answer for an instruction given as a number (a command word is handed over as one 16-bit number,
so there is no byte order to apply). -/
def decodeTableWord (nbits w : Nat) : Option Instr :=
  match decode (BitVec.ofNat 16 (w % 2 ^ nbits)) with
  | .ok i => some i
  | .error _ => none

/-- The opcode of an operation (R84). -/
def Instr.opcode : Instr → BitVec 8
  | .nop => 0x00
  | .clrs => 0x01
  | .rst => 0x02
  | .skip _ => 0x03
  | .fcdec => 0x10
  | .fcenc => 0x11
  | .stdec => 0x12
  | .stenc => 0x13
  | .scdec => 0x20
  | .scenc => 0x21
  | .scnew => 0x22
  | .scset => 0x23
  | .macdec _ => 0x24
  | .macenc _ => 0x25
  | .capdec => 0x26
  | .capenc => 0x27
  | .tlvdec => 0x30
  | .tlvenc => 0x31
  | .ratek => 0x32
  | .krate => 0x33
  | .mhdec => 0x40
  | .mhenc => 0x41
  | .dhctx => 0x42
  | .dhdec => 0x43
  | .dhenc => 0x44
  | .disp => 0x50
  | .gsel => 0x51
  | .parse => 0x52

/-- The argument byte of an operation; 0 in format N (R81). -/
def Instr.arg : Instr → BitVec 8
  | .skip n => n
  | .macdec k => k
  | .macenc k => k
  | .nop | .clrs | .rst | .fcdec | .fcenc | .stdec | .stenc | .scdec | .scenc | .scnew | .scset
  | .capdec | .capenc | .tlvdec | .tlvenc | .ratek | .krate | .mhdec | .mhenc | .dhctx | .dhdec | .dhenc
  | .disp | .gsel | .parse => 0

/-- The command word of an operation, `{arg, opcode}` (R87). -/
def encode (i : Instr) : CommandWord := i.arg ++ i.opcode

end Sys2Proof
end

