-- ==== Sys2Proof/Config.lean ====
section
/-! DEFINITION. What an implementation of FCD fixes: the types of the parameters of 00_scope.md R8, and the
free values, which the spec leaves open and no proof can see. The default values stand in Machine/Parameters.lean. -/

namespace Sys2Proof

/-- The four frame types (10_state.md R28). -/
inductive FrameType where
  | management
  | control
  | data
  | unknown
  deriving DecidableEq, Repr

/-- The subtypes that the default tables name (40_frame_control.md R106, R107, R118). -/
inductive StdSubtype where
  | associationRequest
  | associationResponse
  | reassociationRequest
  | reassociationResponse
  | probeRequest
  | probeResponse
  | timingAdvertisement
  | beacon
  | atim
  | disassociation
  | authentication
  | deauthentication
  | action
  | actionNoAck
  | beamformingReportPoll
  | vhtNdpAnnouncement
  | controlFrameExtension
  | controlWrapper
  | blockAckRequest
  | blockAck
  | psPoll
  | rts
  | cts
  | ack
  | cfEnd
  | cfEndCfAck
  | data
  | dataCfAck
  | dataCfPoll
  | dataCfAckCfPoll
  | nullData
  | cfAck
  | cfPoll
  | cfAckCfPoll
  | qosData
  | qosDataCfAck
  | qosDataCfPoll
  | qosDataCfAckCfPoll
  | qosNull
  | qosCfPoll
  | qosCfAckCfPoll
  deriving DecidableEq, Repr

/-- A named subtype: one of the names the spec uses, or a further name that a table of the implementation's own
introduces (R107: "a model that wants them names them in its own `SUBTYPE_TABLE`"; log entry 10). -/
inductive SubtypeName where
  | std (n : StdSubtype)
  | other (n : Nat)
  deriving DecidableEq, Repr

/-- What a subtype table holds at one nibble (40_frame_control.md R105). -/
inductive TableEntry where
  | named (n : SubtypeName)
  | reserved
  | unhandled
  deriving DecidableEq, Repr

/-- The open parameters of 00_scope.md R8, as plain data (log entry 2). `TEXT_DECODE` is the algorithm of
42_tlv_station_info.md R164 except on the payloads that `textOverrides` lists (log entry 8). The tables `tabM`, `tabC`,
`tabD` are lists of 16 entries, entry `n` for nibble `n` (R105). -/
structure Params where
  /-- `IBUF_CAP` -/
  ibufCap : Nat
  /-- `OBUF_CAP` -/
  obufCap : Nat
  /-- `TLV_TAIL_MIN` -/
  tlvTailMin : Nat
  /-- `NUL_PLACEHOLDER` -/
  nulPlaceholder : Scalar
  /-- where `TEXT_DECODE` differs from R164 -/
  textOverrides : List (List Byte × List Scalar)
  /-- `SUBTYPE_TABLE`, Management -/
  tabM : List TableEntry
  /-- `SUBTYPE_TABLE`, Control -/
  tabC : List TableEntry
  /-- `SUBTYPE_TABLE`, Data -/
  tabD : List TableEntry
  /-- `QOS_DATA_SUBTYPES` -/
  qosData : List SubtypeName
  /-- `RATE_TABLE`: pairs (octet, kbps) -/
  rateTable : List (BitVec 8 × BitVec 16)
  /-- `HANDLERS` -/
  handlers : List ((FrameType × SubtypeName) × BitVec 8)
  /-- `GENERATORS` -/
  generators : List (BitVec 8 × BitVec 8)
  deriving DecidableEq, Repr

/-- FREE VALUE (93_implementation_defined.md U1; log entry 3): what a byte of `IBUF` that nothing has written since the
`epoch`-th hardware reset holds, by index. -/
opaque Config.unwrittenIbuf : Nat → Nat → Byte

/-- FREE VALUE (U1; log entry 3): the same for `OBUF`. -/
opaque Config.unwrittenObuf : Nat → Nat → Byte

/-- FREE VALUE (U2; log entry 4): what the host's `n`-th read of `CMD` gives. -/
opaque Config.cmdReadValue : Nat → BitVec 16

end Sys2Proof
end

