-- ==== Sys2Proof/Machine/Parameters.lean ====
section
/-! DEFINITION. The default parameters and the fixed capacities (00_scope.md R8), and the two lookups that the
subtype registers need: a table's entry at a nibble and the name a register code stands for. -/

namespace Sys2Proof.Machine

/-- A table entry that names a subtype of the default tables. -/
abbrev stdEntry (n : StdSubtype) : TableEntry := .named (.std n)

/-- The default `TabM` (40_frame_control.md R106). -/
def defaultTabM : List TableEntry :=
  [ stdEntry .associationRequest, stdEntry .associationResponse,
    stdEntry .reassociationRequest, stdEntry .reassociationResponse,
    stdEntry .probeRequest, stdEntry .probeResponse, stdEntry .timingAdvertisement, .reserved,
    stdEntry .beacon, stdEntry .atim, stdEntry .disassociation, stdEntry .authentication,
    stdEntry .deauthentication, stdEntry .action, stdEntry .actionNoAck, .reserved ]

/-- The default `TabC` (R107). -/
def defaultTabC : List TableEntry :=
  [ .reserved, .reserved, .reserved, .reserved,
    stdEntry .beamformingReportPoll, stdEntry .vhtNdpAnnouncement,
    stdEntry .controlFrameExtension, stdEntry .controlWrapper,
    stdEntry .blockAckRequest, stdEntry .blockAck, stdEntry .psPoll, stdEntry .rts,
    stdEntry .cts, stdEntry .ack, stdEntry .cfEnd, stdEntry .cfEndCfAck ]

/-- The default `TabD` (R118). -/
def defaultTabD : List TableEntry :=
  [ stdEntry .data, stdEntry .dataCfAck, stdEntry .dataCfPoll, stdEntry .dataCfAckCfPoll,
    stdEntry .nullData, stdEntry .cfAck, stdEntry .cfPoll, stdEntry .cfAckCfPoll,
    stdEntry .qosData, stdEntry .qosDataCfAck, stdEntry .qosDataCfPoll, stdEntry .qosDataCfAckCfPoll,
    stdEntry .qosNull, .reserved, stdEntry .qosCfPoll, stdEntry .qosCfAckCfPoll ]

/-- The default `QOS_DATA_SUBTYPES` (43_header_assemblers.md R203). -/
def defaultQosData : List SubtypeName :=
  [ .std .qosData, .std .qosDataCfAck, .std .qosDataCfPoll, .std .qosDataCfAckCfPoll,
    .std .qosNull, .std .qosCfPoll, .std .qosCfAckCfPoll ]

/-- The default `RATE_TABLE` (42_tlv_station_info.md R175). -/
def defaultRateTable : List (BitVec 8 × BitVec 16) :=
  [ (0x82, 1000), (0x84, 2000), (0x8B, 5500), (0x96, 11000), (0x0C, 6000), (0x12, 9000),
    (0x18, 12000), (0x24, 18000), (0x30, 24000), (0x48, 36000), (0x60, 48000), (0x6C, 54000) ]

/-- The default `HANDLERS` (44_dispatch_control.md R230). -/
def defaultHandlers : List ((FrameType × SubtypeName) × BitVec 8) :=
  [ ((.management, .std .beacon), 1), ((.management, .std .associationRequest), 2) ]

/-- The default `GENERATORS` (R230). -/
def defaultGenerators : List (BitVec 8 × BitVec 8) := [ (1, 1), (2, 2) ]

/-- The parameters at their defaults (00_scope.md R8). -/
def defaultParams : Params where
  ibufCap := 4096
  obufCap := 4096
  tlvTailMin := 5
  nulPlaceholder := 0x2400
  textOverrides := []
  tabM := defaultTabM
  tabC := defaultTabC
  tabD := defaultTabD
  qosData := defaultQosData
  rateTable := defaultRateTable
  handlers := defaultHandlers
  generators := defaultGenerators

/-- `SSID_CAP` (R8, 10_state.md R36). -/
def ssidCap : Nat := 1020

/-- `RATES_CAP` (R8, 10_state.md R37). -/
def ratesCap : Nat := 256

/-- `DATA_MAX` (R8, 10_state.md R38). -/
def dataMax (p : Params) : Nat := p.ibufCap / 2

/-- `POOL_CAP` (R8, 10_state.md R38). -/
def poolCap (p : Params) : Nat := max p.ibufCap 512

/-- The frame type of a 2-bit type field, which is also the code in `FC.TYPE` (10_state.md R28). -/
def frameTypeOf (t : BitVec 2) : FrameType :=
  if t = 0 then .management else if t = 1 then .control else if t = 2 then .data else .unknown

/-- The register code of the sentinel `Reserved` (10_state.md R29). -/
def subReserved : BitVec 6 := 0x3E

/-- The register code of the sentinel `Unhandled` (R29). -/
def subUnhandled : BitVec 6 := 0x3F

/-- The entry of the table that the frame type selects; there is no table for `Unknown`, whose 16 nibbles are all
`Unhandled` (40_frame_control.md R105, R108). -/
def tableEntry (p : Params) (t : FrameType) (nib : BitVec 4) : TableEntry :=
  match t with
  | .management => p.tabM.getD nib.toNat .reserved
  | .control => p.tabC.getD nib.toNat .reserved
  | .data => p.tabD.getD nib.toNat .reserved
  | .unknown => .unhandled

/-- The named subtype a register code stands for: code `{c, n}` is the name that category `c` has at nibble `n`; none
for the sentinels and for the codes that are not legal (10_state.md R29). -/
def nameOfCode (p : Params) (sub : BitVec 6) : Option SubtypeName :=
  match tableEntry p (frameTypeOf (sub.extractLsb' 4 2)) (sub.extractLsb' 0 4) with
  | .named n => some n
  | .reserved => none
  | .unhandled => none

/-- The legal codes of `FC.SUB`: the named subtypes and the two sentinels (R29). -/
def legalSub (p : Params) (sub : BitVec 6) : Bool :=
  sub == subReserved || sub == subUnhandled || (nameOfCode p sub).isSome

/-- The reset value of `FC.SUB`: the code of Management nibble 0, or `Reserved` where no subtype is named there
(10_state.md R41). -/
def resetSub (p : Params) : BitVec 6 := if legalSub p 0 then 0 else subReserved

end Sys2Proof.Machine
end

