-- ==== Sys2Proof/Machine/State.lean ====
section
/-! DEFINITION. The state of FCD (10_state.md), what the host can still do to it, the status codes, the faults and
refusals, and the state after reset. Plain data. -/

namespace Sys2Proof.Machine

/-- A byte buffer: (index, byte) pairs with indexes strictly rising; an index that is not listed is a byte that nothing
has written since the last hardware reset (10_state.md R39, R41; log entry 3). -/
abbrev Memory := List Host.Cell

/-- The canonical form: indexes strictly rising. An unlisted byte has no value, so no entry can equal what an unlisted
index reads as. -/
abbrev Memory.wf (m : Memory) : Prop := (m.map Prod.fst).Pairwise (· < ·)

/-- A MacAddress: six raw octets, `b0` transmitted first (R32). -/
structure MacAddr where
  b0 : Byte
  b1 : Byte
  b2 : Byte
  b3 : Byte
  b4 : Byte
  b5 : Byte
  deriving DecidableEq, Repr

/-- The FC group (R27). -/
structure FrameControl where
  ver : BitVec 2
  type : BitVec 2
  sub : BitVec 6
  flags : BitVec 8
  deriving DecidableEq, Repr

/-- The SC group (R30). -/
structure SeqControl where
  frag : BitVec 4
  seq : BitVec 12
  deriving DecidableEq, Repr

/-- The HD group (R31). -/
structure Header where
  dur : BitVec 16
  qos : BitVec 16
  a4p : BitVec 1
  qosp : BitVec 1
  a1 : MacAddr
  a2 : MacAddr
  a3 : MacAddr
  a4 : MacAddr
  deriving DecidableEq, Repr

/-- An entry of `SI.DATA` (R35), and an element on the wire (42_tlv_station_info.md R160). -/
structure Element where
  tag : BitVec 8
  pay : List Byte
  deriving DecidableEq, Repr

/-- The SI group (R35). -/
structure StationInfo where
  ssidp : BitVec 1
  ssid : List Byte
  rates : List Byte
  data : List Element
  deriving DecidableEq, Repr

/-- The registers the host can address, but for `CMD`, which holds nothing (R22, R26, R27, R30, R31, R34, R35). -/
inductive Reg where
  | id
  | status
  | errinfo
  | icur
  | ilen
  | ocur
  | ocap
  | hsel
  | fvar
  | opa
  | opb
  | res
  | fcVer
  | fcType
  | fcSub
  | fcFlags
  | scFrag
  | scSeq
  | hdDur
  | hdQos
  | hdA4p
  | hdQosp
  | a1
  | a2
  | a3
  | a4
  | cap
  | siSsidp
  | siSsid
  | siRates
  | siData
  deriving DecidableEq, Repr

/-- What a register number addresses: `CMD`, a trigger that holds nothing, or a register (10_state.md R21, R22). -/
inductive Port where
  | cmd
  | reg (r : Reg)
  deriving DecidableEq, Repr

/-- A value the host writes or reads: a number, a byte sequence (the address registers, `SI.SSID`, `SI.RATES`), or the
entries of `SI.DATA`. -/
inductive HostValue where
  | num (n : Nat)
  | bytes (bs : List Byte)
  | elements (es : List Element)
  deriving DecidableEq, Repr

/-- One host action between operations (R21, 20_memory.md R69; log entry 1). -/
inductive HostAction where
  /-- write the command word to `CMD`, which executes one operation (30_encoding.md R80) -/
  | command (w : CommandWord)
  /-- read `CMD` (93_implementation_defined.md U2) -/
  | readCmd
  /-- write a register -/
  | write (r : Reg) (v : HostValue)
  /-- read a register -/
  | read (r : Reg)
  /-- write bytes into `IBUF` from an index on -/
  | writeIbuf (addr : Nat) (bs : List Byte)
  /-- read `n` bytes of `IBUF` from an index on -/
  | readIbuf (addr n : Nat)
  /-- write bytes into `OBUF` from an index on -/
  | writeObuf (addr : Nat) (bs : List Byte)
  /-- read `n` bytes of `OBUF` from an index on -/
  | readObuf (addr n : Nat)
  /-- a hardware reset (70_reset_and_hazards.md R300) -/
  | hardReset
  deriving DecidableEq, Repr

/-- The MODEL's own fields, not the spec's: the host's remaining script (log entry 1), the counters that the free values
are applied to (log entries 3, 4), and what the last host read gave (log entry 17). -/
structure Env where
  script : List HostAction
  epoch : Nat
  cmdReads : Nat
  lastRead : Option HostValue
  deriving DecidableEq, Repr

/-- The machine. `params` is configuration that nothing writes (00_scope.md R8; log entry 2), `env` is the model's own,
every other field is the spec's (10_state.md R20). `ID` is a constant and `CMD` holds nothing (R22), so neither is a
field. -/
structure State where
  params : Params
  env : Env
  /-- `STATUS`: CODE in bits 7:0, STICKY in bit 8 (R23) -/
  status : BitVec 9
  errinfo : BitVec 32
  icur : BitVec 16
  ilen : BitVec 16
  ocur : BitVec 16
  ocap : BitVec 16
  hsel : BitVec 8
  fvar : BitVec 8
  opa : BitVec 16
  opb : BitVec 16
  res : BitVec 32
  fc : FrameControl
  sc : SeqControl
  hd : Header
  cap : BitVec 16
  si : StationInfo
  ibuf : Memory
  obuf : Memory
  deriving DecidableEq, Repr

/-- The status codes (60_exceptions.md R261). `parseFailure` is never produced (R268). -/
inductive Code where
  | ok
  | incomplete
  | parseFailure
  | bufferTooSmall
  | subtypeReserved
  | subtypeUnhandled
  | subtypeMismatch
  | elementTooLong
  | notImplemented
  | unhandledFrameSubtype
  | unhandledProtocol
  | scRange
  | rateUnknown
  | rateNoEncoding
  | illegalCommand
  deriving DecidableEq, Repr

/-- An error as `raise <Code>(info)` reports it (00_scope.md R13). -/
structure Report where
  code : Code
  info : BitVec 32
  deriving DecidableEq, Repr

/-- Why the machine stops. No operation of the block faults (60_exceptions.md R269). -/
inductive Fault where
  /-- Raised by a host access to a buffer index at or beyond the buffer's size, a byte the spec says does not exist
  (10_state.md R39; log entry 6). Safe: the model stops. -/
  | noSuchBufferByte
  deriving DecidableEq, Repr

/-- What the model gives no meaning to. No operation of the block is refused (60_exceptions.md R269). -/
inductive Refusal where
  /-- Raised by an arm of exec whose operation has no meaning yet; none is left. Safe. -/
  | notModelled (mnemonic : String)
  /-- Raised by a host write to a register that the host may only read: `ID`, `STATUS`, `ERRINFO`, `HSEL`, `RES`
  (10_state.md R21 to R23, R26; log entry 5). Safe: the spec gives such a write no effect. -/
  | hostWriteOfReadOnlyRegister
  /-- Raised by a host write of a value that is not of the element's type: a sequence to a scalar register or a number to
  a sequence, an address that is not six bytes, a sequence beyond its capacity (R21, R35; log entry 6). Safe: the spec
  gives such a write no effect. -/
  | hostValueNotOfType
  deriving DecidableEq, Repr

/-- Six octets 0x00 (R31). -/
def zeroMac : MacAddr := ⟨0, 0, 0, 0, 0, 0⟩

/-- A StationInfo with nothing in it (R41). -/
def emptyStationInfo : StationInfo := ⟨0, [], [], []⟩

/-- The machine with the given parameters right after reset (R41, 70_reset_and_hazards.md R300): every register at its
reset value, the buffers with nothing listed. -/
def State.resetWith (p : Params) : State where
  params := p
  env := ⟨[], 0, 0, none⟩
  status := 0
  errinfo := 0
  icur := 0
  ilen := 0
  ocur := 0
  ocap := 0
  hsel := 0
  fvar := 0
  opa := 0
  opb := 0
  res := 0
  fc := ⟨0, 0, resetSub p, 0⟩
  sc := ⟨0, 0⟩
  hd := ⟨0, 0, 0, 0, zeroMac, zeroMac, zeroMac, zeroMac⟩
  cap := 0
  si := emptyStationInfo
  ibuf := []
  obuf := []

/-- The machine right after reset, with the default parameters (log entry 2). -/
def State.reset : State := State.resetWith defaultParams

end Sys2Proof.Machine
end

