-- ==== Sys2Proof/Machine/Flags.lean ====
section
/-! DEFINITION. Every flag computation of FCD: the fields of `STATUS` (10_state.md R23, 60_exceptions.md R261, R265) and
the presence bits of the Data header (43_header_assemblers.md R203, R206). There are no condition codes (10_state.md
R25). -/

namespace Sys2Proof.Machine

/-- The number of a status code (60_exceptions.md R261). -/
def Code.number : Code → BitVec 8
  | .ok => 0
  | .incomplete => 1
  | .parseFailure => 2
  | .bufferTooSmall => 3
  | .subtypeReserved => 4
  | .subtypeUnhandled => 5
  | .subtypeMismatch => 6
  | .elementTooLong => 7
  | .notImplemented => 8
  | .unhandledFrameSubtype => 9
  | .unhandledProtocol => 10
  | .scRange => 11
  | .rateUnknown => 12
  | .rateNoEncoding => 13
  | .illegalCommand => 14

/-- `STATUS.CODE`, bits 7:0 (R23). -/
def statusCode (status : BitVec 9) : BitVec 8 := status.extractLsb' 0 8

/-- `STATUS.STICKY`, bit 8 (R23). -/
def statusSticky (status : BitVec 9) : BitVec 1 := status.extractLsb' 8 1

/-- `STATUS` from its two fields (R23). -/
def statusWord (sticky : BitVec 1) (code : Code) : BitVec 9 := sticky ++ code.number

/-- `HD.A4P` as DHCTX derives it: ToDS and FromDS, bits 0 and 1 of the flags octet (R203, R206). -/
def a4pOf (fc : FrameControl) : BitVec 1 := fc.flags.extractLsb' 0 1 &&& fc.flags.extractLsb' 1 1

/-- `HD.QOSP` as DHCTX derives it: a Data frame whose subtype is one of `QOS_DATA_SUBTYPES` (R203, R206). -/
def qospOf (p : Params) (fc : FrameControl) : BitVec 1 :=
  match frameTypeOf fc.type, nameOfCode p fc.sub with
  | .data, some n => if n ∈ p.qosData then 1 else 0
  | .data, none => 0
  | .management, _ => 0
  | .control, _ => 0
  | .unknown, _ => 0

end Sys2Proof.Machine
end

