-- ==== Sys2Proof/Machine/Operands.lean ====
section
/-! DEFINITION. The operand forms: byte sequences and their 16-bit numbers (00_scope.md R10), address registers by
number (R11, 30_encoding.md R81), the fields of `OPA` and `OPB` (10_state.md R26), and the lookups in the registries
and the rate table (42_tlv_station_info.md R176, R177; 44_dispatch_control.md R230). -/

namespace Sys2Proof.Machine

/-- `s[i]` of a byte sequence; every use is inside the sequence (R10). -/
def byteAt (b : List Byte) (i : Nat) : Byte := b.getD i 0

/-- `s[a..b)` (R10). -/
def slice (b : List Byte) (lo hi : Nat) : List Byte := (b.drop lo).take (hi - lo)

/-- `le16` (R10): the first byte is the low one. -/
def le16 (b : List Byte) : BitVec 16 := byteAt b 1 ++ byteAt b 0

/-- `bytes_le16` (R10). -/
def bytesLe16 (v : BitVec 16) : List Byte := [v.extractLsb' 0 8, v.extractLsb' 8 8]

/-- The six octets of an address, first transmitted first (10_state.md R32). -/
def MacAddr.bytes (m : MacAddr) : List Byte := [m.b0, m.b1, m.b2, m.b3, m.b4, m.b5]

/-- The address that six octets are (R32). -/
def macOf (b : List Byte) : MacAddr := ⟨byteAt b 0, byteAt b 1, byteAt b 2, byteAt b 3, byteAt b 4, byteAt b 5⟩

/-- `A[k]` for `k` in 1..4 (00_scope.md R11). -/
def addrReg (h : Header) (k : BitVec 8) : MacAddr :=
  if k = 1 then h.a1 else if k = 2 then h.a2 else if k = 3 then h.a3 else h.a4

/-- `A[k] <- m` for `k` in 1..4 (R11). -/
def setAddrReg (h : Header) (k : BitVec 8) (m : MacAddr) : Header :=
  if k = 1 then { h with a1 := m } else if k = 2 then { h with a2 := m }
  else if k = 3 then { h with a3 := m } else { h with a4 := m }

/-- `OPA[3:0]`, the nibble of STDEC (40_frame_control.md R112). -/
def opaNibble (opa : BitVec 16) : BitVec 4 := opa.extractLsb' 0 4

/-- `OPA[7:0]`, the octet of RATEK (42_tlv_station_info.md R176). -/
def opaOctet (opa : BitVec 16) : BitVec 8 := opa.extractLsb' 0 8

/-- `OPA[11:0]`, the sequence number of SCNEW and SCSET (41_primitive_codecs.md R135, R136). -/
def opaSeq (opa : BitVec 16) : BitVec 12 := opa.extractLsb' 0 12

/-- `OPB[3:0]`, the fragment number of SCSET (R136). -/
def opbFrag (opb : BitVec 16) : BitVec 4 := opb.extractLsb' 0 4

/-- The rate that `RATE_TABLE` pairs with an octet (42_tlv_station_info.md R176). -/
def rateOfOctet (table : List (BitVec 8 × BitVec 16)) (o : BitVec 8) : Option (BitVec 16) := table.lookup o

/-- The octet that `RATE_TABLE` pairs with a rate (R177). -/
def octetOfRate (table : List (BitVec 8 × BitVec 16)) (r : BitVec 16) : Option (BitVec 8) :=
  (table.map fun e => (e.2, e.1)).lookup r

/-- `HANDLERS(FC.TYPE, FC.SUB)`; a sentinel is no key (44_dispatch_control.md R230, R231). -/
def handlerOf (p : Params) (fc : FrameControl) : Option (BitVec 8) :=
  match nameOfCode p fc.sub with
  | none => none
  | some n => p.handlers.lookup (frameTypeOf fc.type, n)

/-- `GENERATORS(FVAR)` (R230, R233). -/
def generatorOf (p : Params) (fvar : BitVec 8) : Option (BitVec 8) := p.generators.lookup fvar

end Sys2Proof.Machine
end

