-- ==== Sys2Proof/Machine/Ops.lean ====
section
/-! DEFINITION. The shared operations: the two buffers and the cursors (20_memory.md R60 to R66), the writes of the
record registers, how an operation ends and how it raises an error (60_exceptions.md R265), and the two shapes most
operations have, decoding bytes at `ICUR` and encoding bytes at `OCUR`. -/

namespace Sys2Proof.Machine

/-- What an operation answers. -/
abbrev Result := Host.Outcome State Fault Refusal

/-! ## The buffers -/

/-- The byte written last at an index, if any. -/
def Memory.read : Memory → Nat → Option Byte
  | [], _ => none
  | (b, v) :: m, a => if a = b then some v else Memory.read m a

/-- Write one byte, keeping the indexes strictly rising. -/
def Memory.write : Memory → Nat → Byte → Memory
  | [], a, v => [(a, v)]
  | (b, w) :: m, a, v =>
    if a < b then (a, v) :: (b, w) :: m
    else if a = b then (a, v) :: m
    else (b, w) :: Memory.write m a v

/-- Write a byte sequence from an index on (20_memory.md R60). -/
def Memory.writeAll : Memory → Nat → List Byte → Memory
  | m, _, [] => m
  | m, a, b :: bs => Memory.writeAll (Memory.write m a b) (a + 1) bs

/-- `IBUF[a]`; a byte nothing has written holds a free value (93_implementation_defined.md U1; log entry 3). -/
def State.ibufByte (s : State) (a : Nat) : Byte := (Memory.read s.ibuf a).getD (Config.unwrittenIbuf s.env.epoch a)

/-- `OBUF[a]`; likewise. -/
def State.obufByte (s : State) (a : Nat) : Byte := (Memory.read s.obuf a).getD (Config.unwrittenObuf s.env.epoch a)

/-- `MemRead(addr, n)` (00_scope.md R12, 20_memory.md R60). -/
def State.memRead (s : State) (addr n : Nat) : List Byte := (List.range n).map fun i => s.ibufByte (addr + i)

/-- `avail`: the input bytes from the cursor on, 0 when the cursor is beyond `ILEN` (00_scope.md R12). -/
def State.avail (s : State) : Nat := s.ilen.toNat - s.icur.toNat

/-- `room`: the output bytes from the cursor on, 0 when the cursor is beyond `OCAP` (R12). -/
def State.room (s : State) : Nat := s.ocap.toNat - s.ocur.toNat

/-! ## Writes of the registers -/

/-- `ICUR <- ICUR + n`; exact where `n` is at most `avail` (10_state.md R24, 41_primitive_codecs.md R144). -/
def State.advanceIcur (s : State) (n : Nat) : State := { s with icur := s.icur + BitVec.ofNat 16 n }

/-- `MemWrite(OCUR, len(out), out); OCUR <- OCUR + len(out)` (00_scope.md R12, 10_state.md R24). -/
def State.emit (s : State) (out : List Byte) : State :=
  { s with
    obuf := Memory.writeAll s.obuf s.ocur.toNat out
    ocur := s.ocur + BitVec.ofNat 16 out.length }

/-- The FC group takes a value. -/
def State.putFc (s : State) (fc : FrameControl) : State := { s with fc := fc }

/-- The SC group takes a value. -/
def State.putSc (s : State) (sc : SeqControl) : State := { s with sc := sc }

/-- The HD group takes a value. -/
def State.putHd (s : State) (hd : Header) : State := { s with hd := hd }

/-- `CAP <- v` -/
def State.putCap (s : State) (v : BitVec 16) : State := { s with cap := v }

/-- The SI group takes a value. -/
def State.putSi (s : State) (si : StationInfo) : State := { s with si := si }

/-- `RES <- v` -/
def State.putRes (s : State) (v : BitVec 32) : State := { s with res := v }

/-- `HSEL <- v` -/
def State.putHsel (s : State) (v : BitVec 8) : State := { s with hsel := v }

/-- `ICUR <- v` -/
def State.putIcur (s : State) (v : BitVec 16) : State := { s with icur := v }

/-- `OCUR <- v` -/
def State.putOcur (s : State) (v : BitVec 16) : State := { s with ocur := v }

/-! ## Ending an operation and raising an error -/

/-- The end of an operation without `raise`: CODE is OK, `ERRINFO` is 0, STICKY stays (60_exceptions.md R265). -/
def State.finished (s : State) : State := { s with status := statusWord (statusSticky s.status) .ok, errinfo := 0 }

/-- `raise <Code>(info)`: CODE and `ERRINFO` take the report, STICKY becomes 1, nothing else changes; no pc or status is
saved and no handler is entered (00_scope.md R13; R265, R266, R271). There is no return from an error (R272). -/
def State.raised (s : State) (r : Report) : State := { s with status := statusWord 1 r.code, errinfo := r.info }

/-- An operation ends OK in the given state. -/
def finish (s : State) : Result := .next s.finished

/-- TAKING AN ERROR: the one place where an operation ends in an error code. -/
def raise (r : Report) (s : State) : Result := .next (s.raised r)

/-- `Incomplete(missing)` (60_exceptions.md R262). -/
def incomplete (missing : Nat) : Report := ⟨.incomplete, BitVec.ofNat 32 missing⟩

/-- `BufferTooSmall(OCUR + n)` (R262). -/
def bufferTooSmall (s : State) (n : Nat) : Report := ⟨.bufferTooSmall, BitVec.ofNat 32 (s.ocur.toNat + n)⟩

/-- `IllegalCommand(w)` (R262, 30_encoding.md R82). -/
def illegalCommand (w : CommandWord) : Report := ⟨.illegalCommand, w.setWidth 32⟩

/-- The shape of a decode operation: it needs `n` bytes at `ICUR`, raises `Incomplete` when fewer are there, and else
puts what they hold and moves `ICUR` over them (20_memory.md R66). -/
def decodeAtIcur (n : Nat) (put : List Byte → State → State) (s : State) : Result :=
  if s.avail < n then raise (incomplete (n - s.avail)) s
  else finish ((put (s.memRead s.icur.toNat n) s).advanceIcur n)

/-- The shape of an encode operation: it raises `BufferTooSmall` when `out` does not fit at `OCUR`, and else writes it and
moves `OCUR` over it (R66). -/
def encodeAtOcur (out : List Byte) (s : State) : Result :=
  if s.room < out.length then raise (bufferTooSmall s out.length) s
  else finish (s.emit out)

end Sys2Proof.Machine
end

