-- ==== Sys2Proof/Machine/Control.lean ====
section
/-! DEFINITION. The control operations (44_dispatch_control.md R239 to R242): NOP, CLRS, RST, SKIP. -/

namespace Sys2Proof.Machine

/-- NOP (R239). -/
def execNop (s : State) : Result := finish s

/-- CLRS (R240): besides RST the only operation that clears STICKY. -/
def execClrs (s : State) : Result := finish { s with status := statusWord 0 .ok }

/-- Every register at its reset value, the buffers, the parameters and the host's side as they are (R241,
10_state.md R41). -/
def State.registersReset (s : State) : State :=
  { State.resetWith s.params with env := s.env, ibuf := s.ibuf, obuf := s.obuf }

/-- RST (R241). -/
def execRst (s : State) : Result := finish s.registersReset

/-- SKIP n (R242). -/
def execSkip (n : BitVec 8) (s : State) : Result := decodeAtIcur n.toNat (fun _ s => s) s

end Sys2Proof.Machine
end

