-- ==== Sys2Proof/Machine/Codec.lean ====
section
/-! DEFINITION. The pure codecs: the subtype mapper (40_frame_control.md R108, R109), Frame Control (R102, R103) and
Sequence Control (41_primitive_codecs.md R131, R132). -/

namespace Sys2Proof.Machine

/-- `SubDecode(type, nib)` (R108), with the register codes of 10_state.md R29. -/
def subDecode (p : Params) (type : BitVec 2) (nib : BitVec 4) : BitVec 6 :=
  match tableEntry p (frameTypeOf type) nib with
  | .named _ => type ++ nib
  | .reserved => subReserved
  | .unhandled => subUnhandled

/-- `SubEncode(type, sub)` (R109), the checks in its order. A subtype is named in the table of `type` when its code
belongs to that category and names a subtype there. -/
def subEncode (p : Params) (type : BitVec 2) (sub : BitVec 6) : Except Report (BitVec 4) :=
  if frameTypeOf type = .unknown then .error ⟨.unhandledProtocol, 0⟩
  else if sub = subReserved then .error ⟨.subtypeReserved, 0⟩
  else if sub = subUnhandled then .error ⟨.subtypeUnhandled, 0⟩
  else if sub.extractLsb' 4 2 = type ∧ (nameOfCode p sub).isSome = true then .ok (sub.extractLsb' 0 4)
  else .error ⟨.subtypeMismatch, (type ++ sub).setWidth 32⟩

/-- `FcUnpack` (R101, R102). -/
def fcUnpack (p : Params) (b : List Byte) : FrameControl where
  ver := (byteAt b 0).extractLsb' 0 2
  type := (byteAt b 0).extractLsb' 2 2
  sub := subDecode p ((byteAt b 0).extractLsb' 2 2) ((byteAt b 0).extractLsb' 4 4)
  flags := byteAt b 1

/-- `FcPack` (R101, R103). -/
def fcPack (p : Params) (fc : FrameControl) : Except Report (List Byte) :=
  match subEncode p fc.type fc.sub with
  | .error r => .error r
  | .ok nib => .ok [nib ++ fc.type ++ fc.ver, fc.flags]

/-- `ScPack` (41_primitive_codecs.md R131). -/
def scPack (sc : SeqControl) : List Byte := [sc.seq.extractLsb' 0 4 ++ sc.frag, sc.seq.extractLsb' 4 8]

/-- `ScUnpack` (R132). -/
def scUnpack (b : List Byte) : SeqControl where
  frag := (byteAt b 0).extractLsb' 0 4
  seq := byteAt b 1 ++ (byteAt b 0).extractLsb' 4 4

end Sys2Proof.Machine
end

