-- ==== Sys2Proof/Machine/FrameControlOps.lean ====
section
/-! DEFINITION. The Frame Control codec and the subtype mapper (40_frame_control.md R110 to R113): FCDEC, FCENC, STDEC,
STENC. -/

namespace Sys2Proof.Machine

/-- The shape of FCENC, MHENC and DHENC: the Frame Control first, whose error is propagated unchanged, then the capacity
check for the whole output (R111, 43_header_assemblers.md R205, R208, 60_exceptions.md R267). -/
def encodeAfterFc (rest : List Byte) (s : State) : Result :=
  match fcPack s.params s.fc with
  | .error r => raise r s
  | .ok w => encodeAtOcur (w ++ rest) s

/-- FCDEC (R110). -/
def execFcdec (s : State) : Result := decodeAtIcur 2 (fun b s => s.putFc (fcUnpack s.params b)) s

/-- FCENC (R111). -/
def execFcenc (s : State) : Result := encodeAfterFc [] s

/-- STDEC (R112). -/
def execStdec (s : State) : Result :=
  finish (s.putFc { s.fc with sub := subDecode s.params s.fc.type (opaNibble s.opa) })

/-- STENC (R113). -/
def execStenc (s : State) : Result :=
  match subEncode s.params s.fc.type s.fc.sub with
  | .error r => raise r s
  | .ok n => finish (s.putRes (n.setWidth 32))

end Sys2Proof.Machine
end

