-- ==== Sys2Proof/Machine/Headers.lean ====
section
/-! DEFINITION. The header assemblers (43_header_assemblers.md R200 to R208): MHDEC, MHENC, DHCTX, DHDEC, DHENC. -/

namespace Sys2Proof.Machine

/-- Duration and the first three addresses, from the 22 bytes after a Frame Control (R200, R204, R207). -/
def commonFields (b : List Byte) (h : Header) : Header :=
  { h with
    dur := le16 (slice b 0 2)
    a1 := macOf (slice b 2 8)
    a2 := macOf (slice b 8 14)
    a3 := macOf (slice b 14 20) }

/-- Address4 and QoS control where the presence bits say so (R201, R207). -/
def optionalFields (b : List Byte) (h : Header) : Header :=
  let q := 22 + 6 * h.a4p.toNat
  { h with
    a4 := if h.a4p = 1 then macOf (slice b 22 28) else h.a4
    qos := if h.qosp = 1 then le16 (slice b q (q + 2)) else h.qos }

/-- The bytes of the optional fields that are present (R201, R207). -/
def optionalLength (h : Header) : Nat := 6 * h.a4p.toNat + 2 * h.qosp.toNat

/-- The 22 bytes after a Frame Control (R200, R205). -/
def commonBytes (s : State) : List Byte :=
  bytesLe16 s.hd.dur ++ s.hd.a1.bytes ++ s.hd.a2.bytes ++ s.hd.a3.bytes ++ scPack s.sc

/-- The optional fields that are present, Address4 first (R201, R208). -/
def optionalBytes (h : Header) : List Byte :=
  (if h.a4p = 1 then h.a4.bytes else []) ++ (if h.qosp = 1 then bytesLe16 h.qos else [])

/-- MHDEC (R204). -/
def execMhdec (s : State) : Result :=
  decodeAtIcur 22
    (fun b s => (s.putHd { commonFields b s.hd with a4p := 0, qosp := 0 }).putSc (scUnpack (slice b 20 22))) s

/-- MHENC (R205). -/
def execMhenc (s : State) : Result := encodeAfterFc (commonBytes s) s

/-- DHCTX (R206). -/
def execDhctx (s : State) : Result :=
  finish (s.putHd { s.hd with a4p := a4pOf s.fc, qosp := qospOf s.params s.fc })

/-- DHDEC (R207). -/
def execDhdec (s : State) : Result :=
  decodeAtIcur (22 + optionalLength s.hd)
    (fun b s => (s.putHd (optionalFields b (commonFields b s.hd))).putSc (scUnpack (slice b 20 22))) s

/-- DHENC (R208). -/
def execDhenc (s : State) : Result := encodeAfterFc (commonBytes s ++ optionalBytes s.hd) s

end Sys2Proof.Machine
end

