-- ==== Sys2Proof/Machine/Primitive.lean ====
section
/-! DEFINITION. The primitive codecs (41_primitive_codecs.md R133 to R142): SCDEC, SCENC, SCNEW, SCSET, MACDEC, MACENC,
CAPDEC, CAPENC. -/

namespace Sys2Proof.Machine

/-- `ScRange` of a sequence number (R135, 60_exceptions.md R262). -/
def seqOutOfRange (v : BitVec 16) : Report := ⟨.scRange, v.setWidth 32⟩

/-- `ScRange` of a fragment number: bit 16 is 1 (R136, 60_exceptions.md R262). -/
def fragOutOfRange (v : BitVec 16) : Report := ⟨.scRange, (1 : BitVec 16) ++ v⟩

/-- SCDEC (R133). -/
def execScdec (s : State) : Result := decodeAtIcur 2 (fun b s => s.putSc (scUnpack b)) s

/-- SCENC (R134). -/
def execScenc (s : State) : Result := encodeAtOcur (scPack s.sc) s

/-- SCNEW (R135). -/
def execScnew (s : State) : Result :=
  if 4095 < s.opa then raise (seqOutOfRange s.opa) s
  else finish (s.putSc ⟨0, opaSeq s.opa⟩)

/-- SCSET (R136): the sequence number is checked first. -/
def execScset (s : State) : Result :=
  if 4095 < s.opa then raise (seqOutOfRange s.opa) s
  else if 15 < s.opb then raise (fragOutOfRange s.opb) s
  else finish (s.putSc ⟨opbFrag s.opb, opaSeq s.opa⟩)

/-- MACDEC k (R138); `k` outside 1..4, which the decoder lets through to no operation, raises `IllegalCommand` here too
(log entry 11). -/
def execMacdec (k : BitVec 8) (s : State) : Result :=
  if addrArgOk k then decodeAtIcur 6 (fun b s => s.putHd (setAddrReg s.hd k (macOf b))) s
  else raise (illegalCommand (encode (.macdec k))) s

/-- MACENC k (R139); `k` outside 1..4 as in MACDEC (log entry 11). -/
def execMacenc (k : BitVec 8) (s : State) : Result :=
  if addrArgOk k then encodeAtOcur (addrReg s.hd k).bytes s
  else raise (illegalCommand (encode (.macenc k))) s

/-- CAPDEC (R141). -/
def execCapdec (s : State) : Result := decodeAtIcur 2 (fun b s => s.putCap (le16 b)) s

/-- CAPENC (R142). -/
def execCapenc (s : State) : Result := encodeAtOcur (bytesLe16 s.cap) s

end Sys2Proof.Machine
end

