-- ==== Sys2Proof/Machine/Select.lean ====
section
/-! DEFINITION. The dispatch selector (44_dispatch_control.md R231 to R233): DISP, PARSE, GSEL. -/

namespace Sys2Proof.Machine

/-- The selection DISP and PARSE make: `HSEL` takes the handler of the Frame Control in the registers, or
`UnhandledFrameSubtype` reports how many bytes are left (R231, R232). -/
def selectHandler (remaining : Nat) (s : State) : Result :=
  match handlerOf s.params s.fc with
  | some h => finish (s.putHsel h)
  | none => raise ⟨.unhandledFrameSubtype, BitVec.ofNat 32 remaining⟩ s

/-- DISP (R231). -/
def execDisp (s : State) : Result := selectHandler s.avail s

/-- PARSE (R232): the Frame Control and `ICUR` are committed before the selection. -/
def execParse (s : State) : Result :=
  if s.ilen.toNat < 2 then raise (incomplete (2 - s.ilen.toNat)) s
  else selectHandler (s.ilen.toNat - 2) ((s.putFc (fcUnpack s.params (s.memRead 0 2))).putIcur 2)

/-- GSEL (R233). -/
def execGsel (s : State) : Result :=
  match generatorOf s.params s.fvar with
  | some h => finish ((s.putHsel h).putOcur 0)
  | none => raise ⟨.notImplemented, s.fvar.setWidth 32⟩ s

end Sys2Proof.Machine
end

