-- ==== Sys2Proof/Machine/Text.lean ====
section
/-! DEFINITION. SSID text: the decoder `TEXT_DECODE` (42_tlv_station_info.md R163, R164) and the encoder `Utf8`
(R165). -/

namespace Sys2Proof.Machine

/-- U+FFFD, which replaces a maximal ill-formed subsequence (R164). -/
def replacementChar : Scalar := 0xFFFD

/-- What a lead byte announces: how many continuation bytes, the bounds of the first of them, and the scalar bits the
lead byte holds; none for a byte that cannot lead (R164). -/
def leadByte (b : Byte) : Option (Nat × Byte × Byte × Scalar) :=
  if 0xC2 ≤ b ∧ b ≤ 0xDF then some (1, 0x80, 0xBF, (b &&& 0x1F).setWidth 21)
  else if b = 0xE0 then some (2, 0xA0, 0xBF, (b &&& 0x0F).setWidth 21)
  else if (0xE1 ≤ b ∧ b ≤ 0xEC) ∨ (0xEE ≤ b ∧ b ≤ 0xEF) then some (2, 0x80, 0xBF, (b &&& 0x0F).setWidth 21)
  else if b = 0xED then some (2, 0x80, 0x9F, (b &&& 0x0F).setWidth 21)
  else if b = 0xF0 then some (3, 0x90, 0xBF, (b &&& 0x07).setWidth 21)
  else if 0xF1 ≤ b ∧ b ≤ 0xF3 then some (3, 0x80, 0xBF, (b &&& 0x07).setWidth 21)
  else if b = 0xF4 then some (3, 0x80, 0x8F, (b &&& 0x07).setWidth 21)
  else none

/-- The inner loop of R164: take `need` continuation bytes, the first within `lo` to `hi`; the answer is the scalar
value, or `replacementChar` where a continuation is missing, and the bytes from the offending one on. -/
def takeContinuations : Nat → Byte → Byte → Scalar → List Byte → Scalar × List Byte
  | 0, _, _, cp, rest => (cp, rest)
  | _ + 1, _, _, _, [] => (replacementChar, [])
  | need + 1, lo, hi, cp, b :: rest =>
    if b < lo ∨ hi < b then (replacementChar, b :: rest)
    else takeContinuations need 0x80 0xBF ((cp <<< 6) ||| (b &&& 0x3F).setWidth 21) rest

/-- One turn of the loop of R164 on a payload that begins with `b`: the scalar value it appends and the bytes it
leaves. -/
def decodeOne (nul : Scalar) (b : Byte) (rest : List Byte) : Scalar × List Byte :=
  if b = 0 then (nul, rest)
  else if b ≤ 0x7F then (b.setWidth 21, rest)
  else match leadByte b with
    | none => (replacementChar, rest)
    | some (need, lo, hi, cp) => takeContinuations need lo hi cp rest

/-- The loop of R164; each turn consumes a byte, so as many turns as there are bytes suffice. -/
def decodeTurns (nul : Scalar) : Nat → List Byte → List Scalar
  | 0, _ => []
  | _ + 1, [] => []
  | turns + 1, b :: rest =>
    let one := decodeOne nul b rest
    one.1 :: decodeTurns nul turns one.2

/-- The default `TEXT_DECODE` (R164). -/
def defaultTextDecode (nul : Scalar) (p : List Byte) : List Scalar := decodeTurns nul p.length p

/-- `TEXT_DECODE`, the parameter: R164 but where the parameters list another text for a payload (log entry 8). -/
def textDecode (p : Params) (payload : List Byte) : List Scalar :=
  match p.textOverrides.lookup payload with
  | some t => t
  | none => defaultTextDecode p.nulPlaceholder payload

/-- A continuation byte with six scalar bits. -/
def continuation (six : BitVec 6) : Byte := (0b10 : BitVec 2) ++ six

/-- The UTF-8 encoding of one scalar value (R165). -/
def utf8One (c : Scalar) : List Byte :=
  if c ≤ 0x7F then [c.extractLsb' 0 8]
  else if c ≤ 0x7FF then [(0b110 : BitVec 3) ++ c.extractLsb' 6 5, continuation (c.extractLsb' 0 6)]
  else if c ≤ 0xFFFF then
    [(0b1110 : BitVec 4) ++ c.extractLsb' 12 4, continuation (c.extractLsb' 6 6), continuation (c.extractLsb' 0 6)]
  else
    [(0b11110 : BitVec 5) ++ c.extractLsb' 18 3, continuation (c.extractLsb' 12 6), continuation (c.extractLsb' 6 6),
      continuation (c.extractLsb' 0 6)]

/-- `Utf8` (R165). -/
def utf8 (t : List Scalar) : List Byte := t.flatMap utf8One

/-- What `SI.SSID` holds for an SSID payload (R165, R166). -/
def ssidText (p : Params) (payload : List Byte) : List Byte := utf8 (textDecode p payload)

end Sys2Proof.Machine
end

