-- ==== Sys2Proof/Machine/StationInfoOps.lean ====
section
/-! DEFINITION. The Station Info engine and the rate converter (42_tlv_station_info.md R166, R170, R176, R177): TLVDEC,
TLVENC, RATEK, KRATE. -/

namespace Sys2Proof.Machine

/-- Where one parsed element goes: the last SSID and the last SupportedRates win, every other tag is appended
(R166, R167, R162). -/
def addElement (text : List Byte → List Byte) (si : StationInfo) (tag : BitVec 8) (pay : List Byte) : StationInfo :=
  if tag = 0 then { si with ssidp := 1, ssid := text pay }
  else if tag = 1 then { si with rates := pay }
  else { si with data := si.data ++ [⟨tag, pay⟩] }

/-- The loop of R166 over the bytes of the slice that are left. It ends with the StationInfo and the short tail, or with
the number of payload bytes missing. Each turn consumes at least two bytes, so as many turns as there are bytes suffice
(log entry 19). -/
def parseElements (tailMin : Nat) (text : List Byte → List Byte) :
    Nat → List Byte → StationInfo → Except Nat (StationInfo × List Byte)
  | 0, rest, si => .ok (si, rest)
  | turns + 1, rest, si =>
    if rest.length < tailMin then .ok (si, rest)
    else match rest with
      | tag :: n :: body =>
        if body.length < n.toNat then .error (n.toNat - body.length)
        else parseElements tailMin text turns (body.drop n.toNat) (addElement text si tag (body.take n.toNat))
      | [tag] => .ok (si, [tag])
      | [] => .ok (si, [])

/-- TLVDEC (R166). -/
def execTlvdec (s : State) : Result :=
  let bytes := s.memRead s.icur.toNat s.avail
  match parseElements s.params.tlvTailMin (ssidText s.params) bytes.length bytes emptyStationInfo with
  | .error missing => raise (incomplete missing) s
  | .ok (si, tail) =>
    let consumed := bytes.length - tail.length
    finish (((s.putSi si).putRes (BitVec.ofNat 32 consumed)).advanceIcur consumed)

/-- The elements TLVENC emits, in order (R170). -/
def emittedElements (si : StationInfo) : List Element :=
  (if si.ssidp = 1 then [⟨0, si.ssid⟩] else []) ++ (if 0 < si.rates.length then [⟨1, si.rates⟩] else []) ++ si.data

/-- The first element from index `i` on whose payload is longer than 255 bytes: its index and payload length (R170). -/
def firstTooLong : Nat → List Element → Option (Nat × Nat)
  | _, [] => none
  | i, e :: es => if 255 < e.pay.length then some (i, e.pay.length) else firstTooLong (i + 1) es

/-- An element on the wire (R160). -/
def elementBytes (e : Element) : List Byte := e.tag :: BitVec.ofNat 8 e.pay.length :: e.pay

/-- `ElementTooLong` (R170, 60_exceptions.md R262). -/
def elementTooLong (index len : Nat) : Report := ⟨.elementTooLong, BitVec.ofNat 16 index ++ BitVec.ofNat 16 len⟩

/-- TLVENC (R170). -/
def execTlvenc (s : State) : Result :=
  let elems := emittedElements s.si
  match firstTooLong 0 elems with
  | some (i, len) => raise (elementTooLong i len) s
  | none =>
    let out := elems.flatMap elementBytes
    if s.room < out.length then raise (bufferTooSmall s out.length) s
    else finish ((s.putRes (BitVec.ofNat 32 out.length)).emit out)

/-- RATEK (R176). -/
def execRatek (s : State) : Result :=
  match rateOfOctet s.params.rateTable (opaOctet s.opa) with
  | none => raise ⟨.rateUnknown, (opaOctet s.opa).setWidth 32⟩ s
  | some r => finish (s.putRes (r.setWidth 32))

/-- KRATE (R177). -/
def execKrate (s : State) : Result :=
  match octetOfRate s.params.rateTable s.opa with
  | none => raise ⟨.rateNoEncoding, s.opa.setWidth 32⟩ s
  | some o => finish (s.putRes (o.setWidth 32))

end Sys2Proof.Machine
end

