-- ==== Sys2Proof/Machine/Dispatch.lean ====
section
/-! DEFINITION. One arm per operation (30_encoding.md R84). -/

namespace Sys2Proof.Machine

def exec (i : Instr) (s : State) : Host.Outcome State Fault Refusal :=
  match i with
  | .nop => Sys2Proof.Machine.execNop s
  | .clrs => Sys2Proof.Machine.execClrs s
  | .rst => Sys2Proof.Machine.execRst s
  | .skip n => Sys2Proof.Machine.execSkip n s
  | .fcdec => Sys2Proof.Machine.execFcdec s
  | .fcenc => Sys2Proof.Machine.execFcenc s
  | .stdec => Sys2Proof.Machine.execStdec s
  | .stenc => Sys2Proof.Machine.execStenc s
  | .scdec => Sys2Proof.Machine.execScdec s
  | .scenc => Sys2Proof.Machine.execScenc s
  | .scnew => Sys2Proof.Machine.execScnew s
  | .scset => Sys2Proof.Machine.execScset s
  | .macdec k => Sys2Proof.Machine.execMacdec k s
  | .macenc k => Sys2Proof.Machine.execMacenc k s
  | .capdec => Sys2Proof.Machine.execCapdec s
  | .capenc => Sys2Proof.Machine.execCapenc s
  | .tlvdec => Sys2Proof.Machine.execTlvdec s
  | .tlvenc => Sys2Proof.Machine.execTlvenc s
  | .ratek => Sys2Proof.Machine.execRatek s
  | .krate => Sys2Proof.Machine.execKrate s
  | .mhdec => Sys2Proof.Machine.execMhdec s
  | .mhenc => Sys2Proof.Machine.execMhenc s
  | .dhctx => Sys2Proof.Machine.execDhctx s
  | .dhdec => Sys2Proof.Machine.execDhdec s
  | .dhenc => Sys2Proof.Machine.execDhenc s
  | .disp => Sys2Proof.Machine.execDisp s
  | .gsel => Sys2Proof.Machine.execGsel s
  | .parse => Sys2Proof.Machine.execParse s

end Sys2Proof.Machine
end

