-- ==== Sys2Proof/Machine/HostPort.lean ====
section
/-! DEFINITION. What the host does to the block between operations: reads and writes of registers and buffers with the
substitutes of 10_state.md R21, R22, R27 and 70_reset_and_hazards.md R315, reads of `CMD`
(93_implementation_defined.md U2), and the hardware reset (R300). -/

namespace Sys2Proof.Machine

/-- The register numbers (R22, R26, R27, R30, R31, R34, R35). -/
def Reg.number : Reg → BitVec 8
  | .id => 0x00
  | .status => 0x02
  | .errinfo => 0x03
  | .icur => 0x04
  | .ilen => 0x05
  | .ocur => 0x06
  | .ocap => 0x07
  | .hsel => 0x08
  | .fvar => 0x09
  | .opa => 0x0A
  | .opb => 0x0B
  | .res => 0x0C
  | .fcVer => 0x10
  | .fcType => 0x11
  | .fcSub => 0x12
  | .fcFlags => 0x13
  | .scFrag => 0x14
  | .scSeq => 0x15
  | .hdDur => 0x16
  | .hdQos => 0x17
  | .hdA4p => 0x18
  | .hdQosp => 0x19
  | .a1 => 0x1A
  | .a2 => 0x1B
  | .a3 => 0x1C
  | .a4 => 0x1D
  | .cap => 0x1E
  | .siSsidp => 0x20
  | .siSsid => 0x21
  | .siRates => 0x22
  | .siData => 0x23

/-- The number of everything a register number addresses; `CMD` is number 0x01 (R22). -/
def Port.number : Port → BitVec 8
  | .cmd => 0x01
  | .reg r => r.number

/-- What a host action addresses by a register number: `CMD` or a register; none for a buffer access and for a hardware
reset (R21, 93_implementation_defined.md U15). -/
def HostAction.port : HostAction → Option Port
  | .command _ => some .cmd
  | .readCmd => some .cmd
  | .write r _ => some (.reg r)
  | .read r => some (.reg r)
  | .writeIbuf _ _ => none
  | .readIbuf _ _ => none
  | .writeObuf _ _ => none
  | .readObuf _ _ => none
  | .hardReset => none

/-- `ID`: ASCII "FCD" and 0x07 (R22). -/
def idWord : BitVec 32 := 0x46434407

/-- What the host reads from a register (R21, R22). -/
def State.hostRead (s : State) : Reg → HostValue
  | .id => .num idWord.toNat
  | .status => .num s.status.toNat
  | .errinfo => .num s.errinfo.toNat
  | .icur => .num s.icur.toNat
  | .ilen => .num s.ilen.toNat
  | .ocur => .num s.ocur.toNat
  | .ocap => .num s.ocap.toNat
  | .hsel => .num s.hsel.toNat
  | .fvar => .num s.fvar.toNat
  | .opa => .num s.opa.toNat
  | .opb => .num s.opb.toNat
  | .res => .num s.res.toNat
  | .fcVer => .num s.fc.ver.toNat
  | .fcType => .num s.fc.type.toNat
  | .fcSub => .num s.fc.sub.toNat
  | .fcFlags => .num s.fc.flags.toNat
  | .scFrag => .num s.sc.frag.toNat
  | .scSeq => .num s.sc.seq.toNat
  | .hdDur => .num s.hd.dur.toNat
  | .hdQos => .num s.hd.qos.toNat
  | .hdA4p => .num s.hd.a4p.toNat
  | .hdQosp => .num s.hd.qosp.toNat
  | .a1 => .bytes s.hd.a1.bytes
  | .a2 => .bytes s.hd.a2.bytes
  | .a3 => .bytes s.hd.a3.bytes
  | .a4 => .bytes s.hd.a4.bytes
  | .cap => .num s.cap.toNat
  | .siSsidp => .num s.si.ssidp.toNat
  | .siSsid => .bytes s.si.ssid
  | .siRates => .bytes s.si.rates
  | .siData => .elements s.si.data

/-- What a host write of a number to `ILEN` or `OCAP` stores: at most the buffer's size (R22; log entry 7). -/
def limited (cap n : Nat) : BitVec 16 := BitVec.ofNat 16 (min n cap)

/-- What a host write of a number to `FC.SUB` stores: `Reserved` for a number that is no legal code (R27; log
entry 7). -/
def subWritten (p : Params) (n : Nat) : BitVec 6 :=
  if n < 64 ∧ legalSub p (BitVec.ofNat 6 n) = true then BitVec.ofNat 6 n else subReserved

/-- A host write of a number to a register; a number wider than the register stores its low bits (R21, R315). None where
the register takes no number. -/
def State.writeNum (s : State) (r : Reg) (n : Nat) : Option State :=
  match r with
  | .icur => some { s with icur := BitVec.ofNat 16 n }
  | .ilen => some { s with ilen := limited s.params.ibufCap n }
  | .ocur => some { s with ocur := BitVec.ofNat 16 n }
  | .ocap => some { s with ocap := limited s.params.obufCap n }
  | .fvar => some { s with fvar := BitVec.ofNat 8 n }
  | .opa => some { s with opa := BitVec.ofNat 16 n }
  | .opb => some { s with opb := BitVec.ofNat 16 n }
  | .fcVer => some { s with fc := { s.fc with ver := BitVec.ofNat 2 n } }
  | .fcType => some { s with fc := { s.fc with type := BitVec.ofNat 2 n } }
  | .fcSub => some { s with fc := { s.fc with sub := subWritten s.params n } }
  | .fcFlags => some { s with fc := { s.fc with flags := BitVec.ofNat 8 n } }
  | .scFrag => some { s with sc := { s.sc with frag := BitVec.ofNat 4 n } }
  | .scSeq => some { s with sc := { s.sc with seq := BitVec.ofNat 12 n } }
  | .hdDur => some { s with hd := { s.hd with dur := BitVec.ofNat 16 n } }
  | .hdQos => some { s with hd := { s.hd with qos := BitVec.ofNat 16 n } }
  | .hdA4p => some { s with hd := { s.hd with a4p := BitVec.ofNat 1 n } }
  | .hdQosp => some { s with hd := { s.hd with qosp := BitVec.ofNat 1 n } }
  | .cap => some { s with cap := BitVec.ofNat 16 n }
  | .siSsidp => some { s with si := { s.si with ssidp := BitVec.ofNat 1 n } }
  | .id | .status | .errinfo | .hsel | .res | .a1 | .a2 | .a3 | .a4 | .siSsid | .siRates | .siData => none

/-- A host write of a byte sequence: six bytes to an address register, at most the capacity to `SI.SSID` and `SI.RATES`
(R31, R35). None where the sequence is not of the element's type. -/
def State.writeBytes (s : State) (r : Reg) (bs : List Byte) : Option State :=
  match r with
  | .a1 => if bs.length = 6 then some { s with hd := { s.hd with a1 := macOf bs } } else none
  | .a2 => if bs.length = 6 then some { s with hd := { s.hd with a2 := macOf bs } } else none
  | .a3 => if bs.length = 6 then some { s with hd := { s.hd with a3 := macOf bs } } else none
  | .a4 => if bs.length = 6 then some { s with hd := { s.hd with a4 := macOf bs } } else none
  | .siSsid => if bs.length ≤ ssidCap then some { s with si := { s.si with ssid := bs } } else none
  | .siRates => if bs.length ≤ ratesCap then some { s with si := { s.si with rates := bs } } else none
  | .id | .status | .errinfo | .icur | .ilen | .ocur | .ocap | .hsel | .fvar | .opa | .opb | .res
  | .fcVer | .fcType | .fcSub | .fcFlags | .scFrag | .scSeq | .hdDur | .hdQos | .hdA4p | .hdQosp | .cap
  | .siSsidp | .siData => none

/-- The payload bytes of a list of entries (R35). -/
def poolBytes (es : List Element) : Nat := (es.map fun e => e.pay.length).sum

/-- A host write of entries: to `SI.DATA`, within its capacities (R35). -/
def State.writeElements (s : State) (r : Reg) (es : List Element) : Option State :=
  match r with
  | .siData =>
    if es.length ≤ dataMax s.params ∧ poolBytes es ≤ poolCap s.params then
      some { s with si := { s.si with data := es } }
    else none
  | .id | .status | .errinfo | .icur | .ilen | .ocur | .ocap | .hsel | .fvar | .opa | .opb | .res
  | .fcVer | .fcType | .fcSub | .fcFlags | .scFrag | .scSeq | .hdDur | .hdQos | .hdA4p | .hdQosp
  | .a1 | .a2 | .a3 | .a4 | .cap | .siSsidp | .siSsid | .siRates => none

/-- The registers the host may only read (R22, R26). -/
def readOnly : Reg → Bool
  | .id | .status | .errinfo | .hsel | .res => true
  | .icur | .ilen | .ocur | .ocap | .fvar | .opa | .opb | .fcVer | .fcType | .fcSub | .fcFlags | .scFrag | .scSeq
  | .hdDur | .hdQos | .hdA4p | .hdQosp | .a1 | .a2 | .a3 | .a4 | .cap | .siSsidp | .siSsid | .siRates
  | .siData => false

/-- The state after a host write of a value, none where the value is not of the register's type. -/
def State.hostWrite (s : State) (r : Reg) (v : HostValue) : Option State :=
  match v with
  | .num n => s.writeNum r n
  | .bytes bs => s.writeBytes r bs
  | .elements es => s.writeElements r es

/-- The state in which the last host read gave `v` (log entry 17). -/
def State.noteRead (s : State) (v : HostValue) : State := { s with env := { s.env with lastRead := some v } }

/-- A host write of a register (R21; log entries 5, 6). -/
def hostWriteReg (r : Reg) (v : HostValue) (s : State) : Result :=
  if readOnly r then .refused .hostWriteOfReadOnlyRegister
  else match s.hostWrite r v with
    | some t => .next t
    | none => .refused .hostValueNotOfType

/-- A host write of bytes into `IBUF` (10_state.md R39; log entry 6). -/
def hostWriteIbuf (addr : Nat) (bs : List Byte) (s : State) : Result :=
  if addr + bs.length ≤ s.params.ibufCap then .next { s with ibuf := Memory.writeAll s.ibuf addr bs }
  else .fault .noSuchBufferByte

/-- A host write of bytes into `OBUF` (R39; log entry 6). -/
def hostWriteObuf (addr : Nat) (bs : List Byte) (s : State) : Result :=
  if addr + bs.length ≤ s.params.obufCap then .next { s with obuf := Memory.writeAll s.obuf addr bs }
  else .fault .noSuchBufferByte

/-- A host read of bytes of `IBUF` (R39; log entry 6). -/
def hostReadIbuf (addr n : Nat) (s : State) : Result :=
  if addr + n ≤ s.params.ibufCap then .next (s.noteRead (.bytes (s.memRead addr n)))
  else .fault .noSuchBufferByte

/-- A host read of bytes of `OBUF` (R39; log entry 6). -/
def hostReadObuf (addr n : Nat) (s : State) : Result :=
  if addr + n ≤ s.params.obufCap then
    .next (s.noteRead (.bytes ((List.range n).map fun i => s.obufByte (addr + i))))
  else .fault .noSuchBufferByte

/-- A host read of `CMD`: any value (93_implementation_defined.md U2; log entry 4). -/
def hostReadCmd (s : State) : Result :=
  .next { s with
    env := { s.env with
      cmdReads := s.env.cmdReads + 1
      lastRead := some (.num (Config.cmdReadValue s.env.cmdReads).toNat) } }

/-- A hardware reset: every register at its reset value, the buffer contents unspecified (70_reset_and_hazards.md R300,
R301; log entry 18). -/
def hardReset (s : State) : Result :=
  .next { State.resetWith s.params with env := { s.env with epoch := s.env.epoch + 1 } }

/-- A command word that selects no operation (30_encoding.md R82, R85). -/
def execIllegal (w : CommandWord) (s : State) : Result := raise (illegalCommand w) s

end Sys2Proof.Machine
end

