-- ==== Sys2Proof/Machine/Command.lean ====
section
/-! DEFINITION. What one host action does, a write of `CMD` among them: the word is decoded and its operation runs, or
`IllegalCommand` is raised (30_encoding.md R80, R82). -/

namespace Sys2Proof.Machine

/-- A write of a command word to `CMD` (R80, R82). -/
def runCommand (w : CommandWord) (s : State) : Result :=
  match decode w with
  | .ok i => exec i s
  | .error _ => execIllegal w s

/-- One host action (10_state.md R21, 20_memory.md R69 to R71). -/
def runAction (a : HostAction) (s : State) : Result :=
  match a with
  | .command w => runCommand w s
  | .readCmd => hostReadCmd s
  | .write r v => hostWriteReg r v s
  | .read r => .next (s.noteRead (s.hostRead r))
  | .writeIbuf addr bs => hostWriteIbuf addr bs s
  | .readIbuf addr n => hostReadIbuf addr n s
  | .writeObuf addr bs => hostWriteObuf addr bs s
  | .readObuf addr n => hostReadObuf addr n s
  | .hardReset => hardReset s

/-- The state with the rest of the script. -/
def State.withScript (s : State) (rest : List HostAction) : State := { s with env := { s.env with script := rest } }

/-- The next host action of the script happens; with none left the block is idle and holds its state
(60_exceptions.md R279, 44_dispatch_control.md R235; log entry 1). -/
def runNext (s : State) : Result :=
  match s.env.script with
  | [] => .next s
  | a :: rest => runAction a (s.withScript rest)

/-- The state whose next host action writes the low 16 bits of `w` to `CMD`. -/
def State.withCommand (s : State) (w : Nat) : State := s.withScript (.command (BitVec.ofNat 16 w) :: s.env.script)

end Sys2Proof.Machine
end

