-- ==== Sys2Proof/Machine/Step.lean ====
section
/-! DEFINITION. The step: one host action of the script (log entry 1). -/

namespace Sys2Proof.Machine

/-- One step of the machine. -/
def step (s : State) : Host.Outcome State Fault Refusal := runNext s

/-- `s` with an instruction where the next step takes it: a write of the command word to `CMD` put in front of the
script. A command word has 16 bits, so the bits of `w` from `nbits` on are zero. -/
def State.withFetchWord (s : State) (nbits w : Nat) : State := s.withCommand (w % 2 ^ nbits)

end Sys2Proof.Machine
end

