-- ==== Sys2Proof/Machine/Admissible.lean ====
section
/-! DEFINITION. Which parameters are admissible: the constraints of 00_scope.md R8 and of the rules it names, as
decidable conditions. -/

namespace Sys2Proof

open Sys2Proof.Machine

/-- A Unicode scalar value (42_tlv_station_info.md R163). -/
abbrev Machine.isScalarValue (c : Scalar) : Prop := c ≤ 0xD7FF ∨ (0xE000 ≤ c ∧ c ≤ 0x10FFFF)

/-- R163 constraints 3 to 5 for one payload and its text (log entry 9): the NUL bytes of the payload stand, in order, for
places of the text that hold the placeholder, and the text between two such places has at most as many scalar values as
the payload between the two NUL bytes has bytes. `budget` is the number of payload bytes since the last NUL. -/
def Machine.nulAligned (nul : Scalar) : Nat → List Byte → List Scalar → Bool
  | budget, [], t => t.length ≤ budget
  | budget, b :: p, t =>
    if b = 0 then
      (List.range (budget + 1)).any fun i => t[i]? == some nul && Machine.nulAligned nul 0 p (t.drop (i + 1))
    else Machine.nulAligned nul (budget + 1) p t

/-- The constraints on the sizes and the tail threshold (R8). -/
abbrev Params.SizesOk (p : Params) : Prop :=
  2 ≤ p.ibufCap ∧ p.ibufCap ≤ 65535 ∧ 2 ≤ p.obufCap ∧ p.obufCap ≤ 65535 ∧ 2 ≤ p.tlvTailMin ∧ p.tlvTailMin ≤ 255

/-- R163 for one payload on which `TEXT_DECODE` differs from R164. A payload is well-formed UTF-8 without NUL exactly
when R164 followed by `Utf8` gives it back (R172). -/
abbrev Machine.overrideOk (nul : Scalar) (e : List Byte × List Scalar) : Prop :=
  e.1.length ≤ 255 ∧ (∀ c ∈ e.2, isScalarValue c ∧ c ≠ 0) ∧
  (utf8 (defaultTextDecode nul e.1) = e.1 → e.2 = defaultTextDecode nul e.1) ∧
  nulAligned nul 0 e.1 e.2 = true

/-- The constraints on `NUL_PLACEHOLDER` and `TEXT_DECODE` (R8, R163). -/
abbrev Params.TextOk (p : Params) : Prop :=
  isScalarValue p.nulPlaceholder ∧ p.nulPlaceholder ≠ 0 ∧ ∀ e ∈ p.textOverrides, overrideOk p.nulPlaceholder e

/-- The names a table lists. -/
def Machine.namesIn (tab : List TableEntry) : List SubtypeName :=
  tab.filterMap fun e => match e with
    | .named n => some n
    | .reserved => none
    | .unhandled => none

/-- Constraint 5 of 40_frame_control.md R105 for one table: it holds `Reserved` exactly at the nibbles that the standard
leaves unassigned, so a nibble the standard assigns is named or `Unhandled`. The default table of the category lists the
assignments of the standard (R106, R107, R118) and says `Unhandled` nowhere; `amended` lists the nibbles that later
amendments assign, which the constraint leaves open because it depends on the edition (log entry 10). -/
abbrev Machine.agreesWithStandard (default : List TableEntry) (amended : List Nat) (tab : List TableEntry) : Prop :=
  ∀ nib ∈ List.range 16, nib ∉ amended → (tab[nib]? = some .reserved ↔ default[nib]? = some .reserved)

/-- The nibbles of the Control category that later amendments of the standard assign (R107). -/
def Machine.amendedControl : List Nat := [2, 3]

/-- The constraints on `SUBTYPE_TABLE` (40_frame_control.md R105, 1 to 5 in its order; for 5 log entry 10). -/
abbrev Params.TablesOk (p : Params) : Prop :=
  p.tabM.length = 16 ∧ p.tabC.length = 16 ∧ p.tabD.length = 16 ∧
  (namesIn p.tabM ++ namesIn p.tabC ++ namesIn p.tabD).Nodup ∧
  p.tabM[8]? = some (.named (.std .beacon)) ∧ SubtypeName.std .associationRequest ∈ namesIn p.tabM ∧
  agreesWithStandard defaultTabM [] p.tabM ∧ agreesWithStandard defaultTabC amendedControl p.tabC ∧
  agreesWithStandard defaultTabD [] p.tabD

/-- `QOS_DATA_SUBTYPES` is a set of named Data subtypes (R8). -/
abbrev Params.QosOk (p : Params) : Prop := ∀ n ∈ p.qosData, n ∈ namesIn p.tabD

/-- The constraints on `RATE_TABLE` (R8, 42_tlv_station_info.md R174). -/
abbrev Params.RatesOk (p : Params) : Prop :=
  (p.rateTable.map Prod.fst).Nodup ∧ (p.rateTable.map Prod.snd).Nodup ∧ ((0x82, 1000) : BitVec 8 × BitVec 16) ∈ p.rateTable ∧
  ∀ e ∈ p.rateTable, e.1 ≠ 0x99 ∧ e.2 ≠ 0

/-- The constraints on `HANDLERS` and `GENERATORS` (R8, 44_dispatch_control.md R230). -/
abbrev Params.RegistriesOk (p : Params) : Prop :=
  (p.handlers.map Prod.fst).Nodup ∧
  (∀ e ∈ p.handlers, e.2 ≠ 0 ∧ e.1.1 ≠ .unknown ∧ e.1.2 ∈ namesIn p.tabM ++ namesIn p.tabC ++ namesIn p.tabD) ∧
  (p.generators.map Prod.fst).Nodup ∧ ∀ e ∈ p.generators, e.2 ≠ 0

/-- The admissible parameters (R8). -/
abbrev Params.Admissible (p : Params) : Prop :=
  p.SizesOk ∧ p.TextOk ∧ p.TablesOk ∧ p.QosOk ∧ p.RatesOk ∧ p.RegistriesOk

end Sys2Proof
end

