-- ==== Sys2Proof/Safety.lean ====
section
/-! DEFINITION. What the registers and buffers may hold (10_state.md), as an invariant every step keeps, and the words
that statements about outcomes use. -/

namespace Sys2Proof.Machine

/-- Every listed index is an index of the buffer. -/
abbrev Memory.within (cap : Nat) (m : Memory) : Prop := ∀ c ∈ m, c.1 < cap

/-- The buffers are in canonical form and inside their sizes (10_state.md R39). -/
abbrev State.BuffersOk (s : State) : Prop :=
  Memory.wf s.ibuf ∧ Memory.within s.params.ibufCap s.ibuf ∧ Memory.wf s.obuf ∧ Memory.within s.params.obufCap s.obuf

/-- `ILEN`, `OCAP` and `FC.SUB` hold legal values (10_state.md R22, R27, R29). -/
abbrev State.LegalValues (s : State) : Prop :=
  s.ilen.toNat ≤ s.params.ibufCap ∧ s.ocap.toNat ≤ s.params.obufCap ∧ legalSub s.params s.fc.sub = true

/-- The SI group is within its capacities (10_state.md R35 to R38). -/
abbrev State.StationInfoOk (s : State) : Prop :=
  s.si.ssid.length ≤ ssidCap ∧ s.si.rates.length ≤ ratesCap ∧ s.si.data.length ≤ dataMax s.params ∧
  poolBytes s.si.data ≤ poolCap s.params

/-- `STATUS` and `ERRINFO` are what some last operation reported, or their reset values: CODE is one of R261 and not 2
(60_exceptions.md R261, R268); on OK `ERRINFO` is 0 (R262); an error has set STICKY (R265). -/
abbrev State.ReportOk (s : State) : Prop :=
  (statusCode s.status).toNat ≤ 14 ∧ statusCode s.status ≠ 2 ∧ (statusCode s.status = 0 → s.errinfo = 0) ∧
  (statusCode s.status ≠ 0 → statusSticky s.status = 1)

/-- `HSEL` is 0 or the id of a registered handler (10_state.md R22, 44_dispatch_control.md R230). -/
abbrev State.HselOk (s : State) : Prop :=
  s.hsel = 0 ∨ s.hsel ∈ s.params.handlers.map Prod.snd ∨ s.hsel ∈ s.params.generators.map Prod.snd

/-- The invariant of the machine. -/
abbrev State.Inv (s : State) : Prop :=
  s.params.Admissible ∧ s.BuffersOk ∧ s.LegalValues ∧ s.StationInfoOk ∧ s.ReportOk ∧ s.HselOk

/-- The next state of an outcome, if it is one. -/
def nextOf (r : Result) : Option State :=
  match r with
  | .next t => some t
  | .fault _ => none
  | .refused _ => none

end Sys2Proof.Machine
end

