-- ==== Sys2Proof/Certificates/Slice0/Obligations.lean ====
section
/-! DEFINITION. The statements for the provers, and the words they are written in. The words of `Sys2Proof.Spec` follow
the pseudocode of spec/ in terms of single bytes and bits, apart from the model's own operations. -/

namespace Sys2Proof.Spec

open Sys2Proof.Machine

/-! ## Reports and buffers -/

/-- `STATUS.CODE` (10_state.md R23). -/
def code (s : State) : BitVec 8 := s.status.extractLsb' 0 8

/-- `STATUS.STICKY` (R23). -/
def sticky (s : State) : BitVec 1 := s.status.extractLsb' 8 1

/-- `s` with the report of an operation that ended OK: CODE and `ERRINFO` 0, STICKY as it was (60_exceptions.md R265).
-/
def okReport (s : State) : State := { s with status := (sticky s ++ (0 : BitVec 8) : BitVec (1 + 8)), errinfo := 0 }

/-- `s` with the report of an error: the code, its detail, STICKY 1 (R265). -/
def errReport (c : BitVec 8) (info : BitVec 32) (s : State) : State :=
  { s with status := ((1 : BitVec 1) ++ c : BitVec (1 + 8)), errinfo := info }

/-- The byte `i` places after the input cursor. -/
def inAt (s : State) (i : Nat) : Byte := s.ibufByte (s.icur.toNat + i)

/-- The 16-bit number whose low byte is `i` places after the input cursor (20_memory.md R63, R64). -/
def leIn (s : State) (i : Nat) : BitVec 16 := (inAt s (i + 1) ++ inAt s i : BitVec (8 + 8))

/-- The six octets from `i` places after the input cursor on. -/
def macIn (s : State) (i : Nat) : MacAddr :=
  ⟨inAt s i, inAt s (i + 1), inAt s (i + 2), inAt s (i + 3), inAt s (i + 4), inAt s (i + 5)⟩

/-- The Sequence Control whose first octet is `i` places after the input cursor (41_primitive_codecs.md R132). -/
def scIn (s : State) (i : Nat) : SeqControl :=
  ⟨(inAt s i).extractLsb' 0 4, (inAt s (i + 1) ++ (inAt s i).extractLsb' 4 4 : BitVec (8 + 4))⟩

/-- The two octets of a Sequence Control (R131). -/
def scOut (sc : SeqControl) : List Byte :=
  [(sc.seq.extractLsb' 0 4 ++ sc.frag : BitVec (4 + 4)), sc.seq.extractLsb' 4 8]

/-- The two octets of a 16-bit number, low byte first (00_scope.md R10). -/
def leOut (v : BitVec 16) : List Byte := [v.extractLsb' 0 8, v.extractLsb' 8 8]

/-- The six octets of an address, in transmission order (10_state.md R32). -/
def macOut (m : MacAddr) : List Byte := [m.b0, m.b1, m.b2, m.b3, m.b4, m.b5]

/-- The two octets of a Frame Control whose subtype nibble is `nib` (40_frame_control.md R103). -/
def fcOut (nib : BitVec 4) (fc : FrameControl) : List Byte := [(nib ++ fc.type ++ fc.ver : BitVec (4 + 2 + 2)), fc.flags]

/-- `t` is `s` after an operation that wrote exactly `out` at the output cursor, moved the cursor over it and ended OK:
the bytes are there, every other byte of `OBUF` reads as before, and no other register changed. -/
def wroteAtCursor (s t : State) (out : List Byte) : Prop :=
  t = okReport { s with ocur := s.ocur + BitVec.ofNat 16 out.length, obuf := t.obuf } ∧
  (∀ i, (h : i < out.length) → t.obufByte (s.ocur.toNat + i) = out[i]) ∧
  ∀ a, (a < s.ocur.toNat ∨ s.ocur.toNat + out.length ≤ a) → t.obufByte a = s.obufByte a

/-- `i` is an encode operation of `out`: where `out` fits it writes exactly that, and else it raises `BufferTooSmall`
with the least capacity that would do, changing nothing else (20_memory.md R66, 60_exceptions.md R262). -/
def encodes (i : Instr) (s : State) (out : List Byte) : Prop :=
  (out.length ≤ s.room → ∃ t, exec i s = .next t ∧ wroteAtCursor s t out) ∧
  (s.room < out.length → exec i s = .next (errReport 3 (BitVec.ofNat 32 (s.ocur.toNat + out.length)) s))

/-- `i` encodes the Frame Control in the registers and then `rest`: a subtype error is reported first, whatever the room
is, with its code and detail. -/
def encodesAfterFc (i : Instr) (s : State) (rest : List Byte) : Prop :=
  (∀ nib, subEncode s.params s.fc.type s.fc.sub = .ok nib → encodes i s (fcOut nib s.fc ++ rest)) ∧
  ∀ r, subEncode s.params s.fc.type s.fc.sub = .error r → exec i s = .next (errReport r.code.number r.info s)

/-- `i` is a decode operation of `n` bytes whose results are those of `after`: where `n` bytes are there it ends OK with
them and the cursor moved over the bytes, and else it raises `Incomplete` with the number missing, changing nothing else
(20_memory.md R66, 60_exceptions.md R262). -/
def decodes (i : Instr) (s : State) (n : Nat) (after : State) : Prop :=
  (n ≤ s.avail → exec i s = .next (okReport { after with icur := s.icur + BitVec.ofNat 16 n })) ∧
  (s.avail < n → exec i s = .next (errReport 1 (BitVec.ofNat 32 (n - s.avail)) s))

/-! ## Station Info -/

/-- An element on the wire (42_tlv_station_info.md R160). -/
def wire (e : Element) : List Byte := e.tag :: BitVec.ofNat 8 e.pay.length :: e.pay

/-- A sequence of elements on the wire. -/
def flat (es : List Element) : List Byte := es.flatMap wire

/-- The payload of the last element with a tag, if there is one (R167). -/
def lastPayload (tag : BitVec 8) (es : List Element) : Option (List Byte) :=
  ((es.filter fun e => e.tag = tag).getLast?).map fun e => e.pay

/-- The StationInfo that a sequence of elements gives (R166, R167). -/
def stationInfoOf (p : Params) (es : List Element) : StationInfo where
  ssidp := if (lastPayload 0 es).isSome then 1 else 0
  ssid := match lastPayload 0 es with
    | some pay => utf8 (textDecode p pay)
    | none => []
  rates := (lastPayload 1 es).getD []
  data := es.filter fun e => e.tag ≠ 0 ∧ e.tag ≠ 1

/-- The elements that a StationInfo emits, in order (R170). -/
def emission (si : StationInfo) : List Element :=
  (if si.ssidp = 1 then [⟨0, si.ssid⟩] else []) ++ (if si.rates = [] then [] else [⟨1, si.rates⟩]) ++ si.data

/-- The slice that TLVDEC parses, `IBUF[ICUR .. ILEN)`. -/
def input (s : State) : List Byte := (List.range (s.ilen.toNat - s.icur.toNat)).map fun i => s.ibufByte (s.icur.toNat + i)

/-- The slice is the elements `es` and then a tail, and the loop of R166 parses exactly those elements: no payload is
longer than its length byte can say, the tail is short, and the last element does not stand in a short tail itself. -/
def parsesAs (s : State) (es : List Element) (tail : List Byte) : Prop :=
  input s = flat es ++ tail ∧ (∀ e ∈ es, e.pay.length ≤ 255) ∧ tail.length < s.params.tlvTailMin ∧
  ∀ e, es.getLast? = some e → s.params.tlvTailMin ≤ 2 + e.pay.length + tail.length

/-- The elements that come back byte for byte when parsed and serialized again (R172): at most one SSID element, first,
whose text is its own bytes; then at most one SupportedRates element, not empty; then the others. -/
def roundTrips (p : Params) (es : List Element) : Prop :=
  ∃ ssid rates others, es = ssid ++ rates ++ others ∧
    (ssid = [] ∨ ∃ pay, ssid = [⟨0, pay⟩] ∧ utf8 (textDecode p pay) = pay) ∧
    (rates = [] ∨ ∃ pay, rates = [⟨1, pay⟩] ∧ pay ≠ []) ∧
    ∀ e ∈ others, e.tag ≠ 0 ∧ e.tag ≠ 1

/-! ## Tables over the operations -/

/-- How many bytes an operation stores at `OCUR` when it stores (20_memory.md R67). -/
def storedBytes (i : Instr) (s : State) : Nat :=
  match i with
  | .fcenc | .scenc | .capenc => 2
  | .macenc _ => 6
  | .mhenc => 24
  | .dhenc => 24 + 6 * s.hd.a4p.toNat + 2 * s.hd.qosp.toNat
  | .tlvenc => (flat (emission s.si)).length
  | .nop | .clrs | .rst | .skip _ | .fcdec | .stdec | .stenc | .scdec | .scnew | .scset | .macdec _ | .capdec | .tlvdec
  | .ratek | .krate | .mhdec | .dhctx | .dhdec | .disp | .gsel | .parse => 0

/-- The error codes an operation can raise (60_exceptions.md R263); a format K operation whose argument names no address
register raises `IllegalCommand`. -/
def errorsOf (i : Instr) : List (BitVec 8) :=
  match i with
  | .nop | .clrs | .rst | .stdec | .dhctx => []
  | .skip _ | .fcdec | .scdec | .capdec | .mhdec | .dhdec | .tlvdec => [1]
  | .macdec k => if k = 1 ∨ k = 2 ∨ k = 3 ∨ k = 4 then [1] else [14]
  | .parse => [1, 9]
  | .disp => [9]
  | .gsel => [8]
  | .stenc => [10, 4, 5, 6]
  | .fcenc | .mhenc | .dhenc => [10, 4, 5, 6, 3]
  | .scenc | .capenc => [3]
  | .macenc k => if k = 1 ∨ k = 2 ∨ k = 3 ∨ k = 4 then [3] else [14]
  | .tlvenc => [7, 3]
  | .scnew | .scset => [11]
  | .ratek => [12]
  | .krate => [13]

/-- The operations that move `ICUR` (10_state.md R22, R42). -/
def writesIcur : Instr → Bool
  | .rst | .skip _ | .fcdec | .scdec | .macdec _ | .capdec | .tlvdec | .mhdec | .dhdec | .parse => true
  | .nop | .clrs | .fcenc | .stdec | .stenc | .scenc | .scnew | .scset | .macenc _ | .capenc | .tlvenc | .ratek | .krate
  | .mhenc | .dhctx | .dhenc | .disp | .gsel => false

/-- The operations that move `OCUR` (R22, R42). -/
def writesOcur : Instr → Bool
  | .rst | .fcenc | .scenc | .macenc _ | .capenc | .tlvenc | .mhenc | .dhenc | .gsel => true
  | .nop | .clrs | .skip _ | .fcdec | .stdec | .stenc | .scdec | .scnew | .scset | .macdec _ | .capdec | .tlvdec | .ratek
  | .krate | .mhdec | .dhctx | .dhdec | .disp | .parse => false

/-- The 16-bit words that R82 maps to no operation: an opcode that R84 lacks, an argument that is not 0 in format N, an
argument outside 1..4 in format K. -/
def illegalWord (w : CommandWord) : Prop :=
  ¬ (w.extractLsb' 0 8 = 0x03 ∨
    (w.extractLsb' 0 8 ∈ ([0x24, 0x25] : List (BitVec 8)) ∧ w.extractLsb' 8 8 ∈ ([1, 2, 3, 4] : List (BitVec 8))) ∨
    (w.extractLsb' 8 8 = 0 ∧
      w.extractLsb' 0 8 ∈ ([0x00, 0x01, 0x02, 0x10, 0x11, 0x12, 0x13, 0x20, 0x21, 0x22, 0x23, 0x26, 0x27, 0x30, 0x31,
        0x32, 0x33, 0x40, 0x41, 0x42, 0x43, 0x44, 0x50, 0x51, 0x52] : List (BitVec 8))))

/-- Every register at its reset value, the code of `FC.SUB` given, everything that is not a register as in `s`
(10_state.md R41, 70_reset_and_hazards.md R300). -/
def registersAtReset (sub : BitVec 6) (s : State) : State :=
  { params := s.params, env := s.env, ibuf := s.ibuf, obuf := s.obuf,
    status := 0, errinfo := 0, icur := 0, ilen := 0, ocur := 0, ocap := 0, hsel := 0, fvar := 0, opa := 0, opb := 0,
    res := 0, fc := ⟨0, 0, sub, 0⟩, sc := ⟨0, 0⟩,
    hd := ⟨0, 0, 0, 0, ⟨0, 0, 0, 0, 0, 0⟩, ⟨0, 0, 0, 0, 0, 0⟩, ⟨0, 0, 0, 0, 0, 0⟩, ⟨0, 0, 0, 0, 0, 0⟩⟩,
    cap := 0, si := ⟨0, [], [], []⟩ }

/-- The reset code of `FC.SUB`: 0 where Management nibble 0 is named, else `Reserved` (10_state.md R41). -/
def resetSubIs (p : Params) (sub : BitVec 6) : Prop :=
  ((∃ n, p.tabM[0]? = some (.named n)) ∧ sub = 0) ∨ ((∀ n, p.tabM[0]? ≠ some (.named n)) ∧ sub = 0x3E)

end Sys2Proof.Spec

open Sys2Proof Sys2Proof.Machine Sys2Proof.Spec

/-! ## Command words and steps -/

/-- Decoding the command word of any operation the encoding admits gives the operation back (30_encoding.md R80 to R84,
R87). -/
def Obligations.DecodeOfEncodeIsIdentity : Prop :=
  ∀ i : Instr, i.wellFormed = true → decode (encode i) = .ok i

/-- A command word that decodes is the command word of the operation it selects, which the encoding admits: no bit of
the word is dropped and no two words select one operation (R80 to R84). -/
def Obligations.EncodeOfDecodeIsIdentity : Prop :=
  ∀ (w : CommandWord) (i : Instr), decode w = .ok i → encode i = w ∧ i.wellFormed = true

/-- Words of the spec's listings select the operations they stand for (R84, R87). -/
def Obligations.CommandWordsSelectTheirOperations : Prop :=
  decode 0x0000 = .ok .nop ∧ decode 0x0010 = .ok .fcdec ∧ decode 0x0224 = .ok (.macdec 2) ∧
  decode 0x0A03 = .ok (.skip 10) ∧ decode 0x0052 = .ok .parse ∧ decode 0x0031 = .ok .tlvenc ∧ decode 0x0044 = .ok .dhenc

/-- A command word the host writes to `CMD` runs, in the state that is left when the host action is taken from the
script, and the word of an operation runs that operation there (R80, R82; the script is the model's, log entry 1). -/
def Obligations.StepRunsTheDecodedOperation : Prop :=
  ∀ (s : State) (w : CommandWord) (rest : List HostAction), s.env.script = .command w :: rest →
    step s = runCommand w (s.withScript rest) ∧
    ∀ i : Instr, decode w = .ok i → step s = exec i (s.withScript rest)

/-- A word that R82 maps to no operation raises `IllegalCommand` with the word as detail and changes nothing else, every
other word runs an operation; the all-zero word is NOP (R85). -/
def Obligations.IllegalWordsRaiseIllegalCommand : Prop :=
  (∀ (s : State) (w : CommandWord),
    (illegalWord w → runCommand w s = .next (errReport 14 (w.setWidth 32) s)) ∧
    (¬ illegalWord w → ∃ i, decode w = .ok i ∧ runCommand w s = exec i s)) ∧
  decode 0x0000 = .ok .nop

/-- With no host action to come the block holds its state (60_exceptions.md R279; that the model then steps to the same
state is its own choice, log entry 1). -/
def Obligations.IdleBlockHoldsItsState : Prop :=
  ∀ s : State, s.env.script = [] → step s = .next s

/-- Host writes between operations: `ILEN` and `OCAP` saturate, an illegal `FC.SUB` code becomes `Reserved`, a narrow
register keeps the low bits; a host read of `ID` gives the constant and changes no register (10_state.md R21, R22, R27;
70_reset_and_hazards.md R315). -/
def Obligations.HostWritesStoreSubstitutes : Prop :=
  ∀ (s : State) (n : Nat) (rest : List HostAction),
    (n < 65536 → s.env.script = .write .ilen (.num n) :: rest →
      step s = .next { s.withScript rest with
        ilen := if s.params.ibufCap < n then BitVec.ofNat 16 s.params.ibufCap else BitVec.ofNat 16 n }) ∧
    (n < 65536 → s.env.script = .write .ocap (.num n) :: rest →
      step s = .next { s.withScript rest with
        ocap := if s.params.obufCap < n then BitVec.ofNat 16 s.params.obufCap else BitVec.ofNat 16 n }) ∧
    (n < 64 → s.env.script = .write .fcSub (.num n) :: rest →
      step s = .next { s.withScript rest with
        fc := { s.fc with sub := if legalSub s.params (BitVec.ofNat 6 n) then BitVec.ofNat 6 n else 0x3E } }) ∧
    (s.env.script = .write .fcVer (.num n) :: rest →
      step s = .next { s.withScript rest with fc := { s.fc with ver := BitVec.ofNat 2 n } }) ∧
    (s.env.script = .write .fcType (.num n) :: rest →
      step s = .next { s.withScript rest with fc := { s.fc with type := BitVec.ofNat 2 n } }) ∧
    (s.env.script = .write .scFrag (.num n) :: rest →
      step s = .next { s.withScript rest with sc := { s.sc with frag := BitVec.ofNat 4 n } }) ∧
    (s.env.script = .write .scSeq (.num n) :: rest →
      step s = .next { s.withScript rest with sc := { s.sc with seq := BitVec.ofNat 12 n } }) ∧
    (s.env.script = .read .id :: rest →
      step s = .next { s with env := { s.env with script := rest, lastRead := some (.num 0x46434407) } })

/-- A hardware reset puts every register at its reset value; the parameters stay, a new epoch begins, and every byte of
the buffers is the free value of that epoch, so none is known to be what it was (70_reset_and_hazards.md R300, R301; the
epoch and the free values are the model's, log entries 3, 18). -/
def Obligations.HardwareResetRestoresRegisters : Prop :=
  ∀ (s : State) (rest : List HostAction), s.env.script = .hardReset :: rest →
    ∃ t sub, step s = .next t ∧ resetSubIs s.params sub ∧ t.env.script = rest ∧ t.params = s.params ∧
      t = registersAtReset sub t ∧ t.env.epoch = s.env.epoch + 1 ∧
      ∀ a, t.ibufByte a = Config.unwrittenIbuf t.env.epoch a ∧ t.obufByte a = Config.unwrittenObuf t.env.epoch a

/-- Right after reset, whatever the parameters are, every register holds the value of R41 and R300. -/
def Obligations.ResetStateHoldsResetValues : Prop :=
  (∀ p : Params, ∃ sub, resetSubIs p sub ∧ State.resetWith p = registersAtReset sub (State.resetWith p)) ∧
  State.reset = registersAtReset 0 State.reset

/-- No operation and no illegal word has an outcome other than OK or one of the codes of R261 but `ParseFailure`: every
command word, from every state, leads to a next state (60_exceptions.md R269). -/
def Obligations.EveryCommandEndsInAStatusCode : Prop :=
  (∀ (s : State) (w : CommandWord), ∃ t, runCommand w s = .next t ∧ (code t).toNat ≤ 14 ∧ code t ≠ 2) ∧
  ∀ (i : Instr) (s : State), ∃ t, exec i s = .next t ∧ (code t).toNat ≤ 14 ∧ code t ≠ 2

/-- An operation that raises changes `STATUS` and `ERRINFO` and nothing else, PARSE raising `UnhandledFrameSubtype`
excepted, which keeps the completed Frame Control decode (60_exceptions.md R266). -/
def Obligations.ErrorsChangeOnlyTheReport : Prop :=
  ∀ (i : Instr) (s t : State), exec i s = .next t → code t ≠ 0 →
    if i = .parse ∧ code t = 9 then
      t = { s with
        status := t.status, errinfo := t.errinfo, icur := 2,
        fc := {
          ver := (s.ibufByte 0).extractLsb' 0 2
          type := (s.ibufByte 0).extractLsb' 2 2
          sub := subDecode s.params ((s.ibufByte 0).extractLsb' 2 2) ((s.ibufByte 0).extractLsb' 4 4)
          flags := s.ibufByte 1 } }
    else t = { s with status := t.status, errinfo := t.errinfo }

/-- Every operation reports: on success CODE and `ERRINFO` are 0 and STICKY stays, but for CLRS and RST, which clear it;
on an error STICKY is 1 (60_exceptions.md R265). -/
def Obligations.EveryOperationReports : Prop :=
  ∀ (i : Instr) (s t : State), exec i s = .next t →
    (code t = 0 → t.errinfo = 0 ∧ sticky t = if i = .clrs ∨ i = .rst then 0 else sticky s) ∧
    (code t ≠ 0 → sticky t = 1)

/-- An operation raises only the errors its row of 60_exceptions.md R263 lists (the spec's own inference from the
operation rules; for MACDEC and MACENC with a bad argument log entry 11). -/
def Obligations.OperationsRaiseOnlyTheirErrors : Prop :=
  ∀ (i : Instr) (s t : State), exec i s = .next t → code t = 0 ∨ code t ∈ errorsOf i

/-! ## The invariant -/

/-- Every step keeps the invariant: the parameters admissible, the buffers in canonical form inside their sizes, `ILEN`,
`OCAP` and `FC.SUB` legal, the SI group within its capacities, the report one that an operation makes, `HSEL` 0 or a
registered id. -/
def Obligations.StepKeepsTheInvariant : Prop :=
  ∀ s t : State, s.Inv → step s = .next t → t.Inv

/-- The invariant holds right after reset. -/
def Obligations.ResetMeetsTheInvariant : Prop := State.reset.Inv

/-! ## Frames -/

/-- What each operation leaves unchanged (10_state.md R42, the spec's own inference from the operation rules, and the
"block writes" columns of R22, R26, R27, R30, R31, R34, R35). -/
def Obligations.OnlyTheListedOperationsWrite : Prop :=
  ∀ (i : Instr) (s t : State), exec i s = .next t →
    t.params = s.params ∧ t.env = s.env ∧
    (i ≠ .rst → t.ilen = s.ilen ∧ t.ocap = s.ocap ∧ t.opa = s.opa ∧ t.opb = s.opb ∧ t.fvar = s.fvar) ∧
    (writesIcur i = false → t.icur = s.icur) ∧
    (writesOcur i = false → t.ocur = s.ocur) ∧
    (i ∉ [.rst, .stenc, .tlvdec, .tlvenc, .ratek, .krate] → t.res = s.res) ∧
    (i ∉ [.rst, .disp, .gsel, .parse] → t.hsel = s.hsel) ∧
    (i ∉ [.rst, .fcdec, .parse] → t.fc = { s.fc with sub := t.fc.sub }) ∧
    (i ∉ [.rst, .fcdec, .parse, .stdec] → t.fc.sub = s.fc.sub) ∧
    (i ∉ [.rst, .scdec, .scnew, .scset, .mhdec, .dhdec] → t.sc = s.sc) ∧
    (i ∉ [.rst, .mhdec, .dhdec] → t.hd.dur = s.hd.dur) ∧
    (i ∉ [.rst, .mhdec, .dhdec, .macdec 1] → t.hd.a1 = s.hd.a1) ∧
    (i ∉ [.rst, .mhdec, .dhdec, .macdec 2] → t.hd.a2 = s.hd.a2) ∧
    (i ∉ [.rst, .mhdec, .dhdec, .macdec 3] → t.hd.a3 = s.hd.a3) ∧
    (i ∉ [.rst, .macdec 4] → ¬ (i = .dhdec ∧ s.hd.a4p = 1) → t.hd.a4 = s.hd.a4) ∧
    (i ≠ .rst → ¬ (i = .dhdec ∧ s.hd.qosp = 1) → t.hd.qos = s.hd.qos) ∧
    (i ∉ [.rst, .mhdec, .dhctx] → t.hd.a4p = s.hd.a4p ∧ t.hd.qosp = s.hd.qosp) ∧
    (i ∉ [.rst, .capdec] → t.cap = s.cap) ∧
    (i ∉ [.rst, .tlvdec] → t.si = s.si)

/-- Every byte of `OBUF` outside the bytes an operation stores at `OCUR` reads as before; an operation that stores
nothing leaves all of them (20_memory.md R60, R67, the latter the spec's own inference from the operation rules). -/
def Obligations.StoresStayInTheirBytes : Prop :=
  ∀ (i : Instr) (s t : State), exec i s = .next t →
    ∀ a, (a < s.ocur.toNat ∨ s.ocur.toNat + storedBytes i s ≤ a) → t.obufByte a = s.obufByte a

/-- The block never writes `IBUF` (20_memory.md R61). -/
def Obligations.InputBufferIsNeverWritten : Prop :=
  ∀ (i : Instr) (s t : State), exec i s = .next t → t.ibuf = s.ibuf ∧ ∀ a, t.ibufByte a = s.ibufByte a

/-- The block never reads `OBUF`: with other contents there, an operation has the same result, and every byte of `OBUF`
afterwards is either one it stored, the same in both, or one it left (20_memory.md R62). -/
def Obligations.OutputBufferIsNeverRead : Prop :=
  ∀ (i : Instr) (s t : State) (m : Memory), exec i s = .next t →
    ∃ t', exec i { s with obuf := m } = .next t' ∧ { t' with obuf := t.obuf } = t ∧
      ∀ a, t'.obufByte a = t.obufByte a ∨
        (t.obufByte a = s.obufByte a ∧ t'.obufByte a = ({ s with obuf := m } : State).obufByte a)

/-- A cursor never wraps: an operation other than RST leaves `ICUR` or moves it to a value at most `ILEN`, and never
back but for PARSE, which sets it to 2; it leaves `OCUR`, moves it forward to a value at most `OCAP`, or, GSEL, to 0
(10_state.md R24; 41_primitive_codecs.md R144, the spec's own inference from the operation rules). -/
def Obligations.CursorsStayWithinTheirLimits : Prop :=
  ∀ (i : Instr) (s t : State), exec i s = .next t → i ≠ .rst →
    (t.icur = s.icur ∨
      (t.icur.toNat ≤ s.ilen.toNat ∧ if i = .parse then t.icur = 2 else s.icur.toNat < t.icur.toNat)) ∧
    (t.ocur = s.ocur ∨
      (if i = .gsel then t.ocur = 0 else s.ocur.toNat < t.ocur.toNat ∧ t.ocur.toNat ≤ s.ocap.toNat))

/-! ## Control operations -/

/-- NOP ends OK and changes nothing else; CLRS also clears STICKY, and it and RST are the only operations that do
(44_dispatch_control.md R239, R240). -/
def Obligations.NopAndClrsReport : Prop :=
  decode 0x0000 = .ok .nop ∧ decode 0x0001 = .ok .clrs ∧
  (∀ s : State,
    exec .nop s = .next { s with status := (s.status.extractLsb' 8 1 ++ (0 : BitVec 8) : BitVec (1 + 8)), errinfo := 0 } ∧
    exec .clrs s = .next { s with status := 0, errinfo := 0 }) ∧
  ∀ (i : Instr) (s t : State), exec i s = .next t → sticky s = 1 → sticky t = 0 → i = .clrs ∨ i = .rst

/-- RST gives every register its reset value and leaves both buffers (44_dispatch_control.md R241). -/
def Obligations.RstRestoresRegisters : Prop :=
  decode 0x0002 = .ok .rst ∧
  ∀ s : State, ∃ sub, resetSubIs s.params sub ∧ exec .rst s = .next (registersAtReset sub s)

/-- SKIP n moves the input cursor over n bytes or reports how many are missing; SKIP 0 always ends OK
(44_dispatch_control.md R242). -/
def Obligations.SkipMovesTheInputCursor : Prop :=
  (∀ n : BitVec 8, decode (n ++ (0x03 : BitVec 8) : BitVec (8 + 8)) = .ok (.skip n)) ∧
  ∀ (s : State) (n : BitVec 8), decodes (.skip n) s n.toNat s ∧ exec (.skip 0) s = .next (okReport s)

/-! ## Frame Control -/

/-- FCDEC (40_frame_control.md R110). -/
def Obligations.FcdecDecodesFrameControl : Prop :=
  decode 0x0010 = .ok .fcdec ∧
  ∀ s : State, decodes .fcdec s 2 { s with
    fc := {
      ver := (inAt s 0).extractLsb' 0 2
      type := (inAt s 0).extractLsb' 2 2
      sub := subDecode s.params ((inAt s 0).extractLsb' 2 2) ((inAt s 0).extractLsb' 4 4)
      flags := inAt s 1 } }

/-- FCENC (40_frame_control.md R111). -/
def Obligations.FcencEncodesFrameControl : Prop :=
  decode 0x0011 = .ok .fcenc ∧
  ∀ s : State, encodesAfterFc .fcenc s []

/-- STDEC (40_frame_control.md R112): bits 15:4 of `OPA` are ignored. -/
def Obligations.StdecMapsNibbleToSubtype : Prop :=
  decode 0x0012 = .ok .stdec ∧
  ∀ s : State, exec .stdec s = .next (okReport { s with
    fc := { s.fc with sub := subDecode s.params s.fc.type (BitVec.ofNat 4 (s.opa.toNat % 16)) } })

/-- STENC (40_frame_control.md R113). -/
def Obligations.StencMapsSubtypeToNibble : Prop :=
  decode 0x0013 = .ok .stenc ∧
  ∀ s : State,
    (∀ nib, subEncode s.params s.fc.type s.fc.sub = .ok nib →
      exec .stenc s = .next (okReport { s with res := nib.setWidth 32 })) ∧
    ∀ r, subEncode s.params s.fc.type s.fc.sub = .error r → exec .stenc s = .next (errReport r.code.number r.info s)

/-- `SubDecode` (40_frame_control.md R108): the table the type selects decides, and the type `Unknown` gives `Unhandled`
for every nibble. A name's code is the category and the nibble (10_state.md R29). -/
def Obligations.SubDecodeFollowsTheTables : Prop :=
  ∀ (p : Params) (type : BitVec 2) (nib : BitVec 4),
    (type = 3 → subDecode p type nib = 0x3F) ∧
    ∀ tab, (type, tab) ∈ [((0 : BitVec 2), p.tabM), (1, p.tabC), (2, p.tabD)] →
      (∀ n, tab[nib.toNat]? = some (.named n) → subDecode p type nib = BitVec.ofNat 6 (16 * type.toNat + nib.toNat)) ∧
      (tab[nib.toNat]? = some .reserved → subDecode p type nib = 0x3E) ∧
      (tab[nib.toNat]? = some .unhandled → subDecode p type nib = 0x3F)

/-- `SubEncode` (40_frame_control.md R109): the checks in their order, and the nibble at which the type's table names
the subtype. That a register code that is not legal gives `SubtypeMismatch`, as the fourth line of R109 has it and its
register-code form has not, is the model's choice (log entry 12). -/
def Obligations.SubEncodeChecksInOrder : Prop :=
  ∀ (p : Params) (type : BitVec 2) (sub : BitVec 6),
    (type = 3 → subEncode p type sub = .error ⟨.unhandledProtocol, 0⟩) ∧
    (type ≠ 3 → sub = 0x3E → subEncode p type sub = .error ⟨.subtypeReserved, 0⟩) ∧
    (type ≠ 3 → sub = 0x3F → subEncode p type sub = .error ⟨.subtypeUnhandled, 0⟩) ∧
    ∀ tab, (type, tab) ∈ [((0 : BitVec 2), p.tabM), (1, p.tabC), (2, p.tabD)] →
      (∀ (nib : BitVec 4) n, tab[nib.toNat]? = some (.named n) → sub.toNat = 16 * type.toNat + nib.toNat →
        subEncode p type sub = .ok nib) ∧
      (sub ≠ 0x3E → sub ≠ 0x3F →
        (∀ (nib : BitVec 4) n, tab[nib.toNat]? = some (.named n) → sub.toNat ≠ 16 * type.toNat + nib.toNat) →
        subEncode p type sub = .error ⟨.subtypeMismatch, BitVec.ofNat 32 (64 * type.toNat + sub.toNat)⟩)

/-- Encode then decode (40_frame_control.md R114, the spec's own inference from R102, R103, R108 and R109). -/
def Obligations.FrameControlDecodeInvertsEncode : Prop :=
  ∀ (p : Params) (ver type : BitVec 2) (nib : BitVec 4) (flags : BitVec 8) (n : SubtypeName),
    tableEntry p (frameTypeOf type) nib = .named n →
    ∃ b, fcPack p ⟨ver, type, subDecode p type nib, flags⟩ = .ok b ∧ b.length = 2 ∧
      fcUnpack p b = ⟨ver, type, subDecode p type nib, flags⟩

/-- Decode then encode (40_frame_control.md R115, the spec's own inference from the same rules): the two bytes come
back, or the encoder raises, exactly for the type `Unknown` and the nibbles that are `Reserved` or `Unhandled`. -/
def Obligations.FrameControlEncodeInvertsDecode : Prop :=
  ∀ (p : Params) (b0 b1 : Byte),
    if b0.extractLsb' 2 2 = 3 then fcPack p (fcUnpack p [b0, b1]) = .error ⟨.unhandledProtocol, 0⟩
    else match tableEntry p (frameTypeOf (b0.extractLsb' 2 2)) (b0.extractLsb' 4 4) with
      | .named _ => fcPack p (fcUnpack p [b0, b1]) = .ok [b0, b1]
      | .reserved => fcPack p (fcUnpack p [b0, b1]) = .error ⟨.subtypeReserved, 0⟩
      | .unhandled => fcPack p (fcUnpack p [b0, b1]) = .error ⟨.subtypeUnhandled, 0⟩

/-! ## Primitive codecs -/

/-- SCDEC (41_primitive_codecs.md R133); the unpacking is R132's, the spec's own inference from R131. -/
def Obligations.ScdecUnpacks : Prop :=
  decode 0x0020 = .ok .scdec ∧
  ∀ s : State, decodes .scdec s 2 { s with sc := scIn s 0 }

/-- SCENC (41_primitive_codecs.md R134). -/
def Obligations.ScencPacks : Prop :=
  decode 0x0021 = .ok .scenc ∧
  ∀ s : State, encodes .scenc s (scOut s.sc)

/-- SCNEW (41_primitive_codecs.md R135). -/
def Obligations.ScnewChecksTheRange : Prop :=
  decode 0x0022 = .ok .scnew ∧
  ∀ s : State,
    (s.opa.toNat ≤ 4095 → exec .scnew s = .next (okReport { s with sc := ⟨0, BitVec.ofNat 12 s.opa.toNat⟩ })) ∧
    (4095 < s.opa.toNat → exec .scnew s = .next (errReport 11 (BitVec.ofNat 32 s.opa.toNat) s))

/-- SCSET (41_primitive_codecs.md R136): the sequence number first; bit 16 of the detail says which operand. -/
def Obligations.ScsetChecksBothRanges : Prop :=
  decode 0x0023 = .ok .scset ∧
  ∀ s : State,
    (s.opa.toNat ≤ 4095 → s.opb.toNat ≤ 15 →
      exec .scset s = .next (okReport { s with sc := ⟨BitVec.ofNat 4 s.opb.toNat, BitVec.ofNat 12 s.opa.toNat⟩ })) ∧
    (4095 < s.opa.toNat → exec .scset s = .next (errReport 11 (BitVec.ofNat 32 s.opa.toNat) s)) ∧
    (s.opa.toNat ≤ 4095 → 15 < s.opb.toNat →
      exec .scset s = .next (errReport 11 (BitVec.ofNat 32 (65536 + s.opb.toNat)) s))

/-- Sequence Control round trips, both ways (41_primitive_codecs.md R137, the spec's own inference from R131 and R132).
-/
def Obligations.SequenceControlLaws : Prop :=
  (∀ sc : SeqControl, (scPack sc).length = 2 ∧ scUnpack (scPack sc) = sc) ∧
  ∀ b0 b1 : Byte, scPack (scUnpack [b0, b1]) = [b0, b1]

/-- MACDEC k (41_primitive_codecs.md R138): `A[k]` and no other address, and no presence bit. The
last clause, `exec` of a term with another `k`, which no word decodes to, is the model's choice (log entry 11). -/
def Obligations.MacdecCopiesSixOctets : Prop :=
  (∀ k : BitVec 8, k ∈ ([1, 2, 3, 4] : List (BitVec 8)) → decode (k ++ (0x24 : BitVec 8) : BitVec (8 + 8)) = .ok (.macdec k)) ∧
  ∀ s : State,
    decodes (.macdec 1) s 6 { s with hd := { s.hd with a1 := macIn s 0 } } ∧
    decodes (.macdec 2) s 6 { s with hd := { s.hd with a2 := macIn s 0 } } ∧
    decodes (.macdec 3) s 6 { s with hd := { s.hd with a3 := macIn s 0 } } ∧
    decodes (.macdec 4) s 6 { s with hd := { s.hd with a4 := macIn s 0 } } ∧
    ∀ k : BitVec 8, k ∉ ([1, 2, 3, 4] : List (BitVec 8)) →
      exec (.macdec k) s = .next (errReport 14 (BitVec.ofNat 32 (256 * k.toNat + 0x24)) s)

/-- MACENC k (41_primitive_codecs.md R139). The last clause, `exec` of a term with another `k`, which no word decodes to,
is the model's choice (log entry 11). -/
def Obligations.MacencCopiesSixOctets : Prop :=
  (∀ k : BitVec 8, k ∈ ([1, 2, 3, 4] : List (BitVec 8)) → decode (k ++ (0x25 : BitVec 8) : BitVec (8 + 8)) = .ok (.macenc k)) ∧
  ∀ s : State,
    encodes (.macenc 1) s (macOut s.hd.a1) ∧ encodes (.macenc 2) s (macOut s.hd.a2) ∧
    encodes (.macenc 3) s (macOut s.hd.a3) ∧ encodes (.macenc 4) s (macOut s.hd.a4) ∧
    ∀ k : BitVec 8, k ∉ ([1, 2, 3, 4] : List (BitVec 8)) →
      exec (.macenc k) s = .next (errReport 14 (BitVec.ofNat 32 (256 * k.toNat + 0x25)) s)

/-- CAPDEC (41_primitive_codecs.md R141). -/
def Obligations.CapdecReadsLittleEndian : Prop :=
  decode 0x0026 = .ok .capdec ∧
  ∀ s : State, decodes .capdec s 2 { s with cap := leIn s 0 }

/-- CAPENC (41_primitive_codecs.md R142). -/
def Obligations.CapencWritesLittleEndian : Prop :=
  decode 0x0027 = .ok .capenc ∧
  ∀ s : State, encodes .capenc s (leOut s.cap)

/-! ## Station Info and rates -/

/-- TLVDEC (42_tlv_station_info.md R166) on a slice of whole elements and a short tail: the SI group is replaced by what
the elements give, `RES` is the number of bytes consumed and `ICUR` moves over them. -/
def Obligations.TlvdecParsesElements : Prop :=
  ∀ (s : State) (es : List Element) (tail : List Byte), parsesAs s es tail →
    exec .tlvdec s = .next (okReport { s with
      si := stationInfoOf s.params es
      res := BitVec.ofNat 32 (flat es).length
      icur := s.icur + BitVec.ofNat 16 (flat es).length })

/-- TLVDEC on a slice in which an element's payload is cut short, after any whole elements: `Incomplete` with the number
of payload bytes missing, and nothing of the elements before it is kept (R166, R169). -/
def Obligations.TlvdecReportsTruncation : Prop :=
  ∀ (s : State) (es : List Element) (tag n : Byte) (part : List Byte),
    input s = flat es ++ tag :: n :: part → (∀ e ∈ es, e.pay.length ≤ 255) → part.length < n.toNat →
    s.params.tlvTailMin ≤ 2 + part.length →
    exec .tlvdec s = .next (errReport 1 (BitVec.ofNat 32 (n.toNat - part.length)) s)

/-- A TLVDEC that ends OK has consumed whole elements and left a short tail; `RES` is their total length, `ICUR` moved
by it, and every element that is no SSID and no SupportedRates has its entry (R168; R178, the spec's own inference from
R166). -/
def Obligations.TlvdecConsumesWholeElements : Prop :=
  ∀ s t : State, 2 ≤ s.params.tlvTailMin → exec .tlvdec s = .next t → code t = 0 →
    ∃ (es : List Element) (tail : List Byte),
      input s = flat es ++ tail ∧ tail.length < s.params.tlvTailMin ∧ (∀ e ∈ es, e.pay.length ≤ 255) ∧
      t.res.toNat = (es.map fun e => 2 + e.pay.length).sum ∧ t.icur.toNat = s.icur.toNat + t.res.toNat ∧
      t.si.data.length + (es.filter fun e => e.tag = 0 ∨ e.tag = 1).length = es.length

/-- TLVENC (42_tlv_station_info.md R170): an element that is too long is reported first, by its index in emission order;
then the room for all elements is checked; and else all of them are written. -/
def Obligations.TlvencEmitsElementsInOrder : Prop :=
  decode 0x0031 = .ok .tlvenc ∧
  ∀ s : State,
    ((∀ e ∈ emission s.si, e.pay.length ≤ 255) → (flat (emission s.si)).length ≤ s.room →
      ∃ t, exec .tlvenc s = .next t ∧
        wroteAtCursor { s with res := BitVec.ofNat 32 (flat (emission s.si)).length } t (flat (emission s.si))) ∧
    ((∀ e ∈ emission s.si, e.pay.length ≤ 255) → s.room < (flat (emission s.si)).length →
      exec .tlvenc s = .next (errReport 3 (BitVec.ofNat 32 (s.ocur.toNat + (flat (emission s.si)).length)) s)) ∧
    ∀ (before after : List Element) (e : Element), emission s.si = before ++ e :: after →
      (∀ d ∈ before, d.pay.length ≤ 255) → 255 < e.pay.length →
      exec .tlvenc s = .next
        (errReport 7 (BitVec.ofNat 16 before.length ++ BitVec.ofNat 16 e.pay.length : BitVec (16 + 16)) s)

/-- Parse then serialize (42_tlv_station_info.md R172, the spec's own inference from R166 and R170): from any state that
holds the SI group TLVDEC left and has room for it, TLVENC reproduces the consumed bytes exactly when the elements are
in the domain of R172. -/
def Obligations.TlvParseThenSerialize : Prop :=
  ∀ (s t u : State) (es : List Element) (tail : List Byte), parsesAs s es tail → exec .tlvdec s = .next t →
    u.si = t.si → (flat (emission u.si)).length ≤ u.room →
    ((∃ v, exec .tlvenc u = .next v ∧ code v = 0 ∧ v.res = t.res ∧
        ∀ i, i < t.res.toNat → v.obufByte (u.ocur.toNat + i) = inAt s i) ↔
      roundTrips s.params es)

/-- Serialize then parse (42_tlv_station_info.md R172, the spec's own inference from R166 and R170): TLVDEC of exactly
the bytes TLVENC wrote gives back the SI group, on the domain R172 states. -/
def Obligations.TlvSerializeThenParse : Prop :=
  ∀ s t u : State, 2 ≤ s.params.tlvTailMin → exec .tlvenc s = .next t → code t = 0 → u.params = s.params →
    input u = (List.range t.res.toNat).map (fun i => t.obufByte (s.ocur.toNat + i)) →
    (∀ e, (emission s.si).getLast? = some e → s.params.tlvTailMin ≤ 2 + e.pay.length) →
    (∀ e ∈ s.si.data, e.tag ≠ 0 ∧ e.tag ≠ 1) →
    (s.si.ssidp = 1 → utf8 (textDecode s.params s.si.ssid) = s.si.ssid) → (s.si.ssidp = 0 → s.si.ssid = []) →
    ∃ v, exec .tlvdec u = .next v ∧ code v = 0 ∧ v.si = s.si

/-- `TEXT_DECODE` of admissible parameters meets constraints 1 and 3 to 5 of 42_tlv_station_info.md R163 on every
payload (log entries 8, 9), and the text TLVDEC stores fits `SSID_CAP` (10_state.md R36). -/
def Obligations.TextDecodeMeetsItsConstraints : Prop :=
  ∀ (p : Params) (pay : List Byte), p.TextOk → pay.length ≤ 255 →
    (∀ c ∈ textDecode p pay, isScalarValue c ∧ c ≠ 0) ∧ (textDecode p pay).length ≤ pay.length ∧
    nulAligned p.nulPlaceholder 0 pay (textDecode p pay) = true ∧ (utf8 (textDecode p pay)).length ≤ 1020

/-- `TEXT_DECODE` of admissible parameters decodes a well-formed UTF-8 payload without NUL to exactly its scalar values
(42_tlv_station_info.md R163 constraint 2). -/
def Obligations.TextDecodeInvertsUtf8 : Prop :=
  ∀ (p : Params) (text : List Scalar), p.TextOk → (∀ c ∈ text, isScalarValue c ∧ c ≠ 0) → (utf8 text).length ≤ 255 →
    textDecode p (utf8 text) = text

/-- RATEK (42_tlv_station_info.md R176) over a rate table in which no octet and no rate occurs twice (R174). -/
def Obligations.RatekConverts : Prop :=
  decode 0x0032 = .ok .ratek ∧
  ∀ s : State, s.params.RatesOk →
    (∀ r, (s.opa.extractLsb' 0 8, r) ∈ s.params.rateTable →
      exec .ratek s = .next (okReport { s with res := r.setWidth 32 })) ∧
    ((∀ r, (s.opa.extractLsb' 0 8, r) ∉ s.params.rateTable) →
      exec .ratek s = .next (errReport 12 (BitVec.ofNat 32 (s.opa.toNat % 256)) s))

/-- KRATE (42_tlv_station_info.md R177), inverse to RATEK on the pairs of the table (the spec's own inference from
R174). -/
def Obligations.KrateConverts : Prop :=
  decode 0x0033 = .ok .krate ∧
  ∀ s : State, s.params.RatesOk →
    (∀ o, (o, s.opa) ∈ s.params.rateTable → exec .krate s = .next (okReport { s with res := o.setWidth 32 })) ∧
    ((∀ o, (o, s.opa) ∉ s.params.rateTable) →
      exec .krate s = .next (errReport 13 (BitVec.ofNat 32 s.opa.toNat) s)) ∧
    ∀ o r, (o, r) ∈ s.params.rateTable →
      exec .ratek { s with opa := o.setWidth 16 } = .next (okReport { s with opa := o.setWidth 16, res := r.setWidth 32 }) ∧
      exec .krate { s with opa := r } = .next (okReport { s with opa := r, res := o.setWidth 32 })

/-! ## Headers -/

/-- MHDEC (43_header_assemblers.md R204); the Sequence Control is unpacked as in 41_primitive_codecs.md R132, the spec's
own inference from R131. -/
def Obligations.MhdecReadsTheHeader : Prop :=
  decode 0x0040 = .ok .mhdec ∧
  ∀ s : State, decodes .mhdec s 22 { s with
    hd := { s.hd with dur := leIn s 0, a1 := macIn s 2, a2 := macIn s 8, a3 := macIn s 14, a4p := 0, qosp := 0 }
    sc := scIn s 20 }

/-- MHENC (43_header_assemblers.md R205). -/
def Obligations.MhencBuildsTheHeader : Prop :=
  decode 0x0041 = .ok .mhenc ∧
  ∀ s : State, encodesAfterFc .mhenc s
    (leOut s.hd.dur ++ macOut s.hd.a1 ++ macOut s.hd.a2 ++ macOut s.hd.a3 ++ scOut s.sc)

/-- DHCTX (43_header_assemblers.md R206). -/
def Obligations.DhctxDerivesThePresenceBits : Prop :=
  decode 0x0042 = .ok .dhctx ∧
  ∀ s : State, exec .dhctx s = .next (okReport { s with
    hd := { s.hd with
      a4p := if s.fc.flags.getLsbD 0 = true ∧ s.fc.flags.getLsbD 1 = true then 1 else 0
      qosp := if s.fc.type = 2 ∧ ∃ n ∈ s.params.qosData, nameOfCode s.params s.fc.sub = some n then 1 else 0 } })

/-- DHDEC (43_header_assemblers.md R207): Address4 and QoS control where the presence bits say so, Address4 first; the
Sequence Control is unpacked as in 41_primitive_codecs.md R132, the spec's own inference from R131. -/
def Obligations.DhdecReadsTheHeader : Prop :=
  decode 0x0043 = .ok .dhdec ∧
  ∀ s : State, decodes .dhdec s (22 + 6 * s.hd.a4p.toNat + 2 * s.hd.qosp.toNat) { s with
    hd := { s.hd with
      dur := leIn s 0, a1 := macIn s 2, a2 := macIn s 8, a3 := macIn s 14
      a4 := if s.hd.a4p = 1 then macIn s 22 else s.hd.a4
      qos := if s.hd.qosp = 1 then leIn s (22 + 6 * s.hd.a4p.toNat) else s.hd.qos }
    sc := scIn s 20 }

/-- DHENC (43_header_assemblers.md R208). -/
def Obligations.DhencBuildsTheHeader : Prop :=
  decode 0x0044 = .ok .dhenc ∧
  ∀ s : State, encodesAfterFc .dhenc s
    (leOut s.hd.dur ++ macOut s.hd.a1 ++ macOut s.hd.a2 ++ macOut s.hd.a3 ++ scOut s.sc ++
      (if s.hd.a4p = 1 then macOut s.hd.a4 else []) ++ (if s.hd.qosp = 1 then leOut s.hd.qos else []))

/-- Management header round trip (43_header_assemblers.md R209, the spec's own inference from R204 to R208). First: the
24 bytes MHENC wrote, decoded by FCDEC and MHDEC in any state of the same parameters that holds them at its input
cursor, give the fields back. Second: 24 bytes decoded by FCDEC and MHDEC, with a Frame Control that encodes, are
written back by MHENC. -/
def Obligations.ManagementHeaderRoundTrip : Prop :=
  (∀ s t u : State, exec .mhenc s = .next t → code t = 0 → u.params = s.params → 24 ≤ u.avail →
    (∀ i, i < 24 → inAt u i = t.obufByte (s.ocur.toNat + i)) →
    ∃ v w, exec .fcdec u = .next v ∧ exec .mhdec v = .next w ∧ code w = 0 ∧
      w.fc = s.fc ∧ w.sc = s.sc ∧ w.hd.dur = s.hd.dur ∧ w.hd.a1 = s.hd.a1 ∧ w.hd.a2 = s.hd.a2 ∧ w.hd.a3 = s.hd.a3) ∧
  ∀ (u v w : State) (nib : BitVec 4), 24 ≤ u.avail → exec .fcdec u = .next v → exec .mhdec v = .next w → 24 ≤ w.room →
    subEncode w.params w.fc.type w.fc.sub = .ok nib →
    ∃ x, exec .mhenc w = .next x ∧ code x = 0 ∧ ∀ i, i < 24 → x.obufByte (w.ocur.toNat + i) = inAt u i

/-- Data header round trip (43_header_assemblers.md R209, the spec's own inference), provided the presence bits DHENC
was given equal what DHCTX derives from the Frame Control. First and second as for the Management header, with DHCTX
between the decoders. -/
def Obligations.DataHeaderRoundTrip : Prop :=
  (∀ s c t u : State, exec .dhctx s = .next c → c.hd = s.hd → exec .dhenc s = .next t → code t = 0 →
    u.params = s.params → 24 + 6 * s.hd.a4p.toNat + 2 * s.hd.qosp.toNat ≤ u.avail →
    (∀ i, i < 24 + 6 * s.hd.a4p.toNat + 2 * s.hd.qosp.toNat → inAt u i = t.obufByte (s.ocur.toNat + i)) →
    ∃ v w x, exec .fcdec u = .next v ∧ exec .dhctx v = .next w ∧ exec .dhdec w = .next x ∧ code x = 0 ∧
      x.fc = s.fc ∧ x.sc = s.sc ∧ x.hd.dur = s.hd.dur ∧ x.hd.a1 = s.hd.a1 ∧ x.hd.a2 = s.hd.a2 ∧ x.hd.a3 = s.hd.a3 ∧
      x.hd.a4p = s.hd.a4p ∧ x.hd.qosp = s.hd.qosp ∧
      (s.hd.a4p = 1 → x.hd.a4 = s.hd.a4) ∧ (s.hd.qosp = 1 → x.hd.qos = s.hd.qos)) ∧
  ∀ (u v w x : State) (nib : BitVec 4), exec .fcdec u = .next v → exec .dhctx v = .next w → exec .dhdec w = .next x →
    24 + 6 * w.hd.a4p.toNat + 2 * w.hd.qosp.toNat ≤ u.avail →
    24 + 6 * w.hd.a4p.toNat + 2 * w.hd.qosp.toNat ≤ x.room →
    subEncode x.params x.fc.type x.fc.sub = .ok nib →
    ∃ y, exec .dhenc x = .next y ∧ code y = 0 ∧
      ∀ i, i < 24 + 6 * w.hd.a4p.toNat + 2 * w.hd.qosp.toNat → y.obufByte (x.ocur.toNat + i) = inAt u i

/-! ## Dispatch -/

/-- DISP (44_dispatch_control.md R231) over registries whose keys occur once (R230). -/
def Obligations.DispSelectsTheHandler : Prop :=
  decode 0x0050 = .ok .disp ∧
  ∀ s : State, s.params.RegistriesOk →
    (∀ n h, nameOfCode s.params s.fc.sub = some n → ((frameTypeOf s.fc.type, n), h) ∈ s.params.handlers →
      exec .disp s = .next (okReport { s with hsel := h })) ∧
    ((∀ n h, nameOfCode s.params s.fc.sub = some n → ((frameTypeOf s.fc.type, n), h) ∉ s.params.handlers) →
      exec .disp s = .next (errReport 9 (BitVec.ofNat 32 s.avail) s))

/-- GSEL (44_dispatch_control.md R233). -/
def Obligations.GselSelectsTheGenerator : Prop :=
  decode 0x0051 = .ok .gsel ∧
  ∀ s : State, s.params.RegistriesOk →
    (∀ h, (s.fvar, h) ∈ s.params.generators → exec .gsel s = .next (okReport { s with hsel := h, ocur := 0 })) ∧
    ((∀ h, (s.fvar, h) ∉ s.params.generators) →
      exec .gsel s = .next (errReport 8 (BitVec.ofNat 32 s.fvar.toNat) s))

/-- PARSE (44_dispatch_control.md R232): as FCDEC at index 0, whatever `ICUR` is, and then the selection, whose failure
leaves the Frame Control and `ICUR` done. -/
def Obligations.ParseDecodesAndSelects : Prop :=
  decode 0x0052 = .ok .parse ∧
  ∀ s d : State, s.params.RegistriesOk →
    d = { s with
      fc := {
        ver := (s.ibufByte 0).extractLsb' 0 2
        type := (s.ibufByte 0).extractLsb' 2 2
        sub := subDecode s.params ((s.ibufByte 0).extractLsb' 2 2) ((s.ibufByte 0).extractLsb' 4 4)
        flags := s.ibufByte 1 }
      icur := 2 } →
    (2 ≤ s.ilen.toNat →
      (∀ n h, nameOfCode d.params d.fc.sub = some n → ((frameTypeOf d.fc.type, n), h) ∈ d.params.handlers →
        exec .parse s = .next (okReport { d with hsel := h })) ∧
      ((∀ n h, nameOfCode d.params d.fc.sub = some n → ((frameTypeOf d.fc.type, n), h) ∉ d.params.handlers) →
        exec .parse s = .next (errReport 9 (BitVec.ofNat 32 (s.ilen.toNat - 2)) d))) ∧
    (s.ilen.toNat < 2 → exec .parse s = .next (errReport 1 (BitVec.ofNat 32 (2 - s.ilen.toNat)) s))
end

