-- ==== Sys2Proof/Laws/State.lean ====
section
/-! SUPPORT. One lemma per field per named update of the state, so that no proof unfolds a record update. -/

namespace Sys2Proof.Machine

/-! ## advanceIcur -/

@[simp] theorem State.advanceIcur_params (s : State) (n : Nat) : (s.advanceIcur n).params = s.params := rfl
@[simp] theorem State.advanceIcur_env (s : State) (n : Nat) : (s.advanceIcur n).env = s.env := rfl
@[simp] theorem State.advanceIcur_status (s : State) (n : Nat) : (s.advanceIcur n).status = s.status := rfl
@[simp] theorem State.advanceIcur_errinfo (s : State) (n : Nat) : (s.advanceIcur n).errinfo = s.errinfo := rfl
@[simp] theorem State.advanceIcur_icur (s : State) (n : Nat) : (s.advanceIcur n).icur = s.icur + BitVec.ofNat 16 n := rfl
@[simp] theorem State.advanceIcur_ilen (s : State) (n : Nat) : (s.advanceIcur n).ilen = s.ilen := rfl
@[simp] theorem State.advanceIcur_ocur (s : State) (n : Nat) : (s.advanceIcur n).ocur = s.ocur := rfl
@[simp] theorem State.advanceIcur_ocap (s : State) (n : Nat) : (s.advanceIcur n).ocap = s.ocap := rfl
@[simp] theorem State.advanceIcur_hsel (s : State) (n : Nat) : (s.advanceIcur n).hsel = s.hsel := rfl
@[simp] theorem State.advanceIcur_fvar (s : State) (n : Nat) : (s.advanceIcur n).fvar = s.fvar := rfl
@[simp] theorem State.advanceIcur_opa (s : State) (n : Nat) : (s.advanceIcur n).opa = s.opa := rfl
@[simp] theorem State.advanceIcur_opb (s : State) (n : Nat) : (s.advanceIcur n).opb = s.opb := rfl
@[simp] theorem State.advanceIcur_res (s : State) (n : Nat) : (s.advanceIcur n).res = s.res := rfl
@[simp] theorem State.advanceIcur_fc (s : State) (n : Nat) : (s.advanceIcur n).fc = s.fc := rfl
@[simp] theorem State.advanceIcur_sc (s : State) (n : Nat) : (s.advanceIcur n).sc = s.sc := rfl
@[simp] theorem State.advanceIcur_hd (s : State) (n : Nat) : (s.advanceIcur n).hd = s.hd := rfl
@[simp] theorem State.advanceIcur_cap (s : State) (n : Nat) : (s.advanceIcur n).cap = s.cap := rfl
@[simp] theorem State.advanceIcur_si (s : State) (n : Nat) : (s.advanceIcur n).si = s.si := rfl
@[simp] theorem State.advanceIcur_ibuf (s : State) (n : Nat) : (s.advanceIcur n).ibuf = s.ibuf := rfl
@[simp] theorem State.advanceIcur_obuf (s : State) (n : Nat) : (s.advanceIcur n).obuf = s.obuf := rfl

/-! ## emit -/

@[simp] theorem State.emit_params (s : State) (out : List Byte) : (s.emit out).params = s.params := rfl
@[simp] theorem State.emit_env (s : State) (out : List Byte) : (s.emit out).env = s.env := rfl
@[simp] theorem State.emit_status (s : State) (out : List Byte) : (s.emit out).status = s.status := rfl
@[simp] theorem State.emit_errinfo (s : State) (out : List Byte) : (s.emit out).errinfo = s.errinfo := rfl
@[simp] theorem State.emit_icur (s : State) (out : List Byte) : (s.emit out).icur = s.icur := rfl
@[simp] theorem State.emit_ilen (s : State) (out : List Byte) : (s.emit out).ilen = s.ilen := rfl
@[simp] theorem State.emit_ocur (s : State) (out : List Byte) : (s.emit out).ocur = s.ocur + BitVec.ofNat 16 out.length := rfl
@[simp] theorem State.emit_ocap (s : State) (out : List Byte) : (s.emit out).ocap = s.ocap := rfl
@[simp] theorem State.emit_hsel (s : State) (out : List Byte) : (s.emit out).hsel = s.hsel := rfl
@[simp] theorem State.emit_fvar (s : State) (out : List Byte) : (s.emit out).fvar = s.fvar := rfl
@[simp] theorem State.emit_opa (s : State) (out : List Byte) : (s.emit out).opa = s.opa := rfl
@[simp] theorem State.emit_opb (s : State) (out : List Byte) : (s.emit out).opb = s.opb := rfl
@[simp] theorem State.emit_res (s : State) (out : List Byte) : (s.emit out).res = s.res := rfl
@[simp] theorem State.emit_fc (s : State) (out : List Byte) : (s.emit out).fc = s.fc := rfl
@[simp] theorem State.emit_sc (s : State) (out : List Byte) : (s.emit out).sc = s.sc := rfl
@[simp] theorem State.emit_hd (s : State) (out : List Byte) : (s.emit out).hd = s.hd := rfl
@[simp] theorem State.emit_cap (s : State) (out : List Byte) : (s.emit out).cap = s.cap := rfl
@[simp] theorem State.emit_si (s : State) (out : List Byte) : (s.emit out).si = s.si := rfl
@[simp] theorem State.emit_ibuf (s : State) (out : List Byte) : (s.emit out).ibuf = s.ibuf := rfl
@[simp] theorem State.emit_obuf (s : State) (out : List Byte) : (s.emit out).obuf = Memory.writeAll s.obuf s.ocur.toNat out := rfl

/-! ## putFc -/

@[simp] theorem State.putFc_params (s : State) (v : FrameControl) : (s.putFc v).params = s.params := rfl
@[simp] theorem State.putFc_env (s : State) (v : FrameControl) : (s.putFc v).env = s.env := rfl
@[simp] theorem State.putFc_status (s : State) (v : FrameControl) : (s.putFc v).status = s.status := rfl
@[simp] theorem State.putFc_errinfo (s : State) (v : FrameControl) : (s.putFc v).errinfo = s.errinfo := rfl
@[simp] theorem State.putFc_icur (s : State) (v : FrameControl) : (s.putFc v).icur = s.icur := rfl
@[simp] theorem State.putFc_ilen (s : State) (v : FrameControl) : (s.putFc v).ilen = s.ilen := rfl
@[simp] theorem State.putFc_ocur (s : State) (v : FrameControl) : (s.putFc v).ocur = s.ocur := rfl
@[simp] theorem State.putFc_ocap (s : State) (v : FrameControl) : (s.putFc v).ocap = s.ocap := rfl
@[simp] theorem State.putFc_hsel (s : State) (v : FrameControl) : (s.putFc v).hsel = s.hsel := rfl
@[simp] theorem State.putFc_fvar (s : State) (v : FrameControl) : (s.putFc v).fvar = s.fvar := rfl
@[simp] theorem State.putFc_opa (s : State) (v : FrameControl) : (s.putFc v).opa = s.opa := rfl
@[simp] theorem State.putFc_opb (s : State) (v : FrameControl) : (s.putFc v).opb = s.opb := rfl
@[simp] theorem State.putFc_res (s : State) (v : FrameControl) : (s.putFc v).res = s.res := rfl
@[simp] theorem State.putFc_fc (s : State) (v : FrameControl) : (s.putFc v).fc = v := rfl
@[simp] theorem State.putFc_sc (s : State) (v : FrameControl) : (s.putFc v).sc = s.sc := rfl
@[simp] theorem State.putFc_hd (s : State) (v : FrameControl) : (s.putFc v).hd = s.hd := rfl
@[simp] theorem State.putFc_cap (s : State) (v : FrameControl) : (s.putFc v).cap = s.cap := rfl
@[simp] theorem State.putFc_si (s : State) (v : FrameControl) : (s.putFc v).si = s.si := rfl
@[simp] theorem State.putFc_ibuf (s : State) (v : FrameControl) : (s.putFc v).ibuf = s.ibuf := rfl
@[simp] theorem State.putFc_obuf (s : State) (v : FrameControl) : (s.putFc v).obuf = s.obuf := rfl

/-! ## putSc -/

@[simp] theorem State.putSc_params (s : State) (v : SeqControl) : (s.putSc v).params = s.params := rfl
@[simp] theorem State.putSc_env (s : State) (v : SeqControl) : (s.putSc v).env = s.env := rfl
@[simp] theorem State.putSc_status (s : State) (v : SeqControl) : (s.putSc v).status = s.status := rfl
@[simp] theorem State.putSc_errinfo (s : State) (v : SeqControl) : (s.putSc v).errinfo = s.errinfo := rfl
@[simp] theorem State.putSc_icur (s : State) (v : SeqControl) : (s.putSc v).icur = s.icur := rfl
@[simp] theorem State.putSc_ilen (s : State) (v : SeqControl) : (s.putSc v).ilen = s.ilen := rfl
@[simp] theorem State.putSc_ocur (s : State) (v : SeqControl) : (s.putSc v).ocur = s.ocur := rfl
@[simp] theorem State.putSc_ocap (s : State) (v : SeqControl) : (s.putSc v).ocap = s.ocap := rfl
@[simp] theorem State.putSc_hsel (s : State) (v : SeqControl) : (s.putSc v).hsel = s.hsel := rfl
@[simp] theorem State.putSc_fvar (s : State) (v : SeqControl) : (s.putSc v).fvar = s.fvar := rfl
@[simp] theorem State.putSc_opa (s : State) (v : SeqControl) : (s.putSc v).opa = s.opa := rfl
@[simp] theorem State.putSc_opb (s : State) (v : SeqControl) : (s.putSc v).opb = s.opb := rfl
@[simp] theorem State.putSc_res (s : State) (v : SeqControl) : (s.putSc v).res = s.res := rfl
@[simp] theorem State.putSc_fc (s : State) (v : SeqControl) : (s.putSc v).fc = s.fc := rfl
@[simp] theorem State.putSc_sc (s : State) (v : SeqControl) : (s.putSc v).sc = v := rfl
@[simp] theorem State.putSc_hd (s : State) (v : SeqControl) : (s.putSc v).hd = s.hd := rfl
@[simp] theorem State.putSc_cap (s : State) (v : SeqControl) : (s.putSc v).cap = s.cap := rfl
@[simp] theorem State.putSc_si (s : State) (v : SeqControl) : (s.putSc v).si = s.si := rfl
@[simp] theorem State.putSc_ibuf (s : State) (v : SeqControl) : (s.putSc v).ibuf = s.ibuf := rfl
@[simp] theorem State.putSc_obuf (s : State) (v : SeqControl) : (s.putSc v).obuf = s.obuf := rfl

/-! ## putHd -/

@[simp] theorem State.putHd_params (s : State) (v : Header) : (s.putHd v).params = s.params := rfl
@[simp] theorem State.putHd_env (s : State) (v : Header) : (s.putHd v).env = s.env := rfl
@[simp] theorem State.putHd_status (s : State) (v : Header) : (s.putHd v).status = s.status := rfl
@[simp] theorem State.putHd_errinfo (s : State) (v : Header) : (s.putHd v).errinfo = s.errinfo := rfl
@[simp] theorem State.putHd_icur (s : State) (v : Header) : (s.putHd v).icur = s.icur := rfl
@[simp] theorem State.putHd_ilen (s : State) (v : Header) : (s.putHd v).ilen = s.ilen := rfl
@[simp] theorem State.putHd_ocur (s : State) (v : Header) : (s.putHd v).ocur = s.ocur := rfl
@[simp] theorem State.putHd_ocap (s : State) (v : Header) : (s.putHd v).ocap = s.ocap := rfl
@[simp] theorem State.putHd_hsel (s : State) (v : Header) : (s.putHd v).hsel = s.hsel := rfl
@[simp] theorem State.putHd_fvar (s : State) (v : Header) : (s.putHd v).fvar = s.fvar := rfl
@[simp] theorem State.putHd_opa (s : State) (v : Header) : (s.putHd v).opa = s.opa := rfl
@[simp] theorem State.putHd_opb (s : State) (v : Header) : (s.putHd v).opb = s.opb := rfl
@[simp] theorem State.putHd_res (s : State) (v : Header) : (s.putHd v).res = s.res := rfl
@[simp] theorem State.putHd_fc (s : State) (v : Header) : (s.putHd v).fc = s.fc := rfl
@[simp] theorem State.putHd_sc (s : State) (v : Header) : (s.putHd v).sc = s.sc := rfl
@[simp] theorem State.putHd_hd (s : State) (v : Header) : (s.putHd v).hd = v := rfl
@[simp] theorem State.putHd_cap (s : State) (v : Header) : (s.putHd v).cap = s.cap := rfl
@[simp] theorem State.putHd_si (s : State) (v : Header) : (s.putHd v).si = s.si := rfl
@[simp] theorem State.putHd_ibuf (s : State) (v : Header) : (s.putHd v).ibuf = s.ibuf := rfl
@[simp] theorem State.putHd_obuf (s : State) (v : Header) : (s.putHd v).obuf = s.obuf := rfl

/-! ## putCap -/

@[simp] theorem State.putCap_params (s : State) (v : BitVec 16) : (s.putCap v).params = s.params := rfl
@[simp] theorem State.putCap_env (s : State) (v : BitVec 16) : (s.putCap v).env = s.env := rfl
@[simp] theorem State.putCap_status (s : State) (v : BitVec 16) : (s.putCap v).status = s.status := rfl
@[simp] theorem State.putCap_errinfo (s : State) (v : BitVec 16) : (s.putCap v).errinfo = s.errinfo := rfl
@[simp] theorem State.putCap_icur (s : State) (v : BitVec 16) : (s.putCap v).icur = s.icur := rfl
@[simp] theorem State.putCap_ilen (s : State) (v : BitVec 16) : (s.putCap v).ilen = s.ilen := rfl
@[simp] theorem State.putCap_ocur (s : State) (v : BitVec 16) : (s.putCap v).ocur = s.ocur := rfl
@[simp] theorem State.putCap_ocap (s : State) (v : BitVec 16) : (s.putCap v).ocap = s.ocap := rfl
@[simp] theorem State.putCap_hsel (s : State) (v : BitVec 16) : (s.putCap v).hsel = s.hsel := rfl
@[simp] theorem State.putCap_fvar (s : State) (v : BitVec 16) : (s.putCap v).fvar = s.fvar := rfl
@[simp] theorem State.putCap_opa (s : State) (v : BitVec 16) : (s.putCap v).opa = s.opa := rfl
@[simp] theorem State.putCap_opb (s : State) (v : BitVec 16) : (s.putCap v).opb = s.opb := rfl
@[simp] theorem State.putCap_res (s : State) (v : BitVec 16) : (s.putCap v).res = s.res := rfl
@[simp] theorem State.putCap_fc (s : State) (v : BitVec 16) : (s.putCap v).fc = s.fc := rfl
@[simp] theorem State.putCap_sc (s : State) (v : BitVec 16) : (s.putCap v).sc = s.sc := rfl
@[simp] theorem State.putCap_hd (s : State) (v : BitVec 16) : (s.putCap v).hd = s.hd := rfl
@[simp] theorem State.putCap_cap (s : State) (v : BitVec 16) : (s.putCap v).cap = v := rfl
@[simp] theorem State.putCap_si (s : State) (v : BitVec 16) : (s.putCap v).si = s.si := rfl
@[simp] theorem State.putCap_ibuf (s : State) (v : BitVec 16) : (s.putCap v).ibuf = s.ibuf := rfl
@[simp] theorem State.putCap_obuf (s : State) (v : BitVec 16) : (s.putCap v).obuf = s.obuf := rfl

/-! ## putSi -/

@[simp] theorem State.putSi_params (s : State) (v : StationInfo) : (s.putSi v).params = s.params := rfl
@[simp] theorem State.putSi_env (s : State) (v : StationInfo) : (s.putSi v).env = s.env := rfl
@[simp] theorem State.putSi_status (s : State) (v : StationInfo) : (s.putSi v).status = s.status := rfl
@[simp] theorem State.putSi_errinfo (s : State) (v : StationInfo) : (s.putSi v).errinfo = s.errinfo := rfl
@[simp] theorem State.putSi_icur (s : State) (v : StationInfo) : (s.putSi v).icur = s.icur := rfl
@[simp] theorem State.putSi_ilen (s : State) (v : StationInfo) : (s.putSi v).ilen = s.ilen := rfl
@[simp] theorem State.putSi_ocur (s : State) (v : StationInfo) : (s.putSi v).ocur = s.ocur := rfl
@[simp] theorem State.putSi_ocap (s : State) (v : StationInfo) : (s.putSi v).ocap = s.ocap := rfl
@[simp] theorem State.putSi_hsel (s : State) (v : StationInfo) : (s.putSi v).hsel = s.hsel := rfl
@[simp] theorem State.putSi_fvar (s : State) (v : StationInfo) : (s.putSi v).fvar = s.fvar := rfl
@[simp] theorem State.putSi_opa (s : State) (v : StationInfo) : (s.putSi v).opa = s.opa := rfl
@[simp] theorem State.putSi_opb (s : State) (v : StationInfo) : (s.putSi v).opb = s.opb := rfl
@[simp] theorem State.putSi_res (s : State) (v : StationInfo) : (s.putSi v).res = s.res := rfl
@[simp] theorem State.putSi_fc (s : State) (v : StationInfo) : (s.putSi v).fc = s.fc := rfl
@[simp] theorem State.putSi_sc (s : State) (v : StationInfo) : (s.putSi v).sc = s.sc := rfl
@[simp] theorem State.putSi_hd (s : State) (v : StationInfo) : (s.putSi v).hd = s.hd := rfl
@[simp] theorem State.putSi_cap (s : State) (v : StationInfo) : (s.putSi v).cap = s.cap := rfl
@[simp] theorem State.putSi_si (s : State) (v : StationInfo) : (s.putSi v).si = v := rfl
@[simp] theorem State.putSi_ibuf (s : State) (v : StationInfo) : (s.putSi v).ibuf = s.ibuf := rfl
@[simp] theorem State.putSi_obuf (s : State) (v : StationInfo) : (s.putSi v).obuf = s.obuf := rfl

/-! ## putRes -/

@[simp] theorem State.putRes_params (s : State) (v : BitVec 32) : (s.putRes v).params = s.params := rfl
@[simp] theorem State.putRes_env (s : State) (v : BitVec 32) : (s.putRes v).env = s.env := rfl
@[simp] theorem State.putRes_status (s : State) (v : BitVec 32) : (s.putRes v).status = s.status := rfl
@[simp] theorem State.putRes_errinfo (s : State) (v : BitVec 32) : (s.putRes v).errinfo = s.errinfo := rfl
@[simp] theorem State.putRes_icur (s : State) (v : BitVec 32) : (s.putRes v).icur = s.icur := rfl
@[simp] theorem State.putRes_ilen (s : State) (v : BitVec 32) : (s.putRes v).ilen = s.ilen := rfl
@[simp] theorem State.putRes_ocur (s : State) (v : BitVec 32) : (s.putRes v).ocur = s.ocur := rfl
@[simp] theorem State.putRes_ocap (s : State) (v : BitVec 32) : (s.putRes v).ocap = s.ocap := rfl
@[simp] theorem State.putRes_hsel (s : State) (v : BitVec 32) : (s.putRes v).hsel = s.hsel := rfl
@[simp] theorem State.putRes_fvar (s : State) (v : BitVec 32) : (s.putRes v).fvar = s.fvar := rfl
@[simp] theorem State.putRes_opa (s : State) (v : BitVec 32) : (s.putRes v).opa = s.opa := rfl
@[simp] theorem State.putRes_opb (s : State) (v : BitVec 32) : (s.putRes v).opb = s.opb := rfl
@[simp] theorem State.putRes_res (s : State) (v : BitVec 32) : (s.putRes v).res = v := rfl
@[simp] theorem State.putRes_fc (s : State) (v : BitVec 32) : (s.putRes v).fc = s.fc := rfl
@[simp] theorem State.putRes_sc (s : State) (v : BitVec 32) : (s.putRes v).sc = s.sc := rfl
@[simp] theorem State.putRes_hd (s : State) (v : BitVec 32) : (s.putRes v).hd = s.hd := rfl
@[simp] theorem State.putRes_cap (s : State) (v : BitVec 32) : (s.putRes v).cap = s.cap := rfl
@[simp] theorem State.putRes_si (s : State) (v : BitVec 32) : (s.putRes v).si = s.si := rfl
@[simp] theorem State.putRes_ibuf (s : State) (v : BitVec 32) : (s.putRes v).ibuf = s.ibuf := rfl
@[simp] theorem State.putRes_obuf (s : State) (v : BitVec 32) : (s.putRes v).obuf = s.obuf := rfl

/-! ## putHsel -/

@[simp] theorem State.putHsel_params (s : State) (v : BitVec 8) : (s.putHsel v).params = s.params := rfl
@[simp] theorem State.putHsel_env (s : State) (v : BitVec 8) : (s.putHsel v).env = s.env := rfl
@[simp] theorem State.putHsel_status (s : State) (v : BitVec 8) : (s.putHsel v).status = s.status := rfl
@[simp] theorem State.putHsel_errinfo (s : State) (v : BitVec 8) : (s.putHsel v).errinfo = s.errinfo := rfl
@[simp] theorem State.putHsel_icur (s : State) (v : BitVec 8) : (s.putHsel v).icur = s.icur := rfl
@[simp] theorem State.putHsel_ilen (s : State) (v : BitVec 8) : (s.putHsel v).ilen = s.ilen := rfl
@[simp] theorem State.putHsel_ocur (s : State) (v : BitVec 8) : (s.putHsel v).ocur = s.ocur := rfl
@[simp] theorem State.putHsel_ocap (s : State) (v : BitVec 8) : (s.putHsel v).ocap = s.ocap := rfl
@[simp] theorem State.putHsel_hsel (s : State) (v : BitVec 8) : (s.putHsel v).hsel = v := rfl
@[simp] theorem State.putHsel_fvar (s : State) (v : BitVec 8) : (s.putHsel v).fvar = s.fvar := rfl
@[simp] theorem State.putHsel_opa (s : State) (v : BitVec 8) : (s.putHsel v).opa = s.opa := rfl
@[simp] theorem State.putHsel_opb (s : State) (v : BitVec 8) : (s.putHsel v).opb = s.opb := rfl
@[simp] theorem State.putHsel_res (s : State) (v : BitVec 8) : (s.putHsel v).res = s.res := rfl
@[simp] theorem State.putHsel_fc (s : State) (v : BitVec 8) : (s.putHsel v).fc = s.fc := rfl
@[simp] theorem State.putHsel_sc (s : State) (v : BitVec 8) : (s.putHsel v).sc = s.sc := rfl
@[simp] theorem State.putHsel_hd (s : State) (v : BitVec 8) : (s.putHsel v).hd = s.hd := rfl
@[simp] theorem State.putHsel_cap (s : State) (v : BitVec 8) : (s.putHsel v).cap = s.cap := rfl
@[simp] theorem State.putHsel_si (s : State) (v : BitVec 8) : (s.putHsel v).si = s.si := rfl
@[simp] theorem State.putHsel_ibuf (s : State) (v : BitVec 8) : (s.putHsel v).ibuf = s.ibuf := rfl
@[simp] theorem State.putHsel_obuf (s : State) (v : BitVec 8) : (s.putHsel v).obuf = s.obuf := rfl

/-! ## putIcur -/

@[simp] theorem State.putIcur_params (s : State) (v : BitVec 16) : (s.putIcur v).params = s.params := rfl
@[simp] theorem State.putIcur_env (s : State) (v : BitVec 16) : (s.putIcur v).env = s.env := rfl
@[simp] theorem State.putIcur_status (s : State) (v : BitVec 16) : (s.putIcur v).status = s.status := rfl
@[simp] theorem State.putIcur_errinfo (s : State) (v : BitVec 16) : (s.putIcur v).errinfo = s.errinfo := rfl
@[simp] theorem State.putIcur_icur (s : State) (v : BitVec 16) : (s.putIcur v).icur = v := rfl
@[simp] theorem State.putIcur_ilen (s : State) (v : BitVec 16) : (s.putIcur v).ilen = s.ilen := rfl
@[simp] theorem State.putIcur_ocur (s : State) (v : BitVec 16) : (s.putIcur v).ocur = s.ocur := rfl
@[simp] theorem State.putIcur_ocap (s : State) (v : BitVec 16) : (s.putIcur v).ocap = s.ocap := rfl
@[simp] theorem State.putIcur_hsel (s : State) (v : BitVec 16) : (s.putIcur v).hsel = s.hsel := rfl
@[simp] theorem State.putIcur_fvar (s : State) (v : BitVec 16) : (s.putIcur v).fvar = s.fvar := rfl
@[simp] theorem State.putIcur_opa (s : State) (v : BitVec 16) : (s.putIcur v).opa = s.opa := rfl
@[simp] theorem State.putIcur_opb (s : State) (v : BitVec 16) : (s.putIcur v).opb = s.opb := rfl
@[simp] theorem State.putIcur_res (s : State) (v : BitVec 16) : (s.putIcur v).res = s.res := rfl
@[simp] theorem State.putIcur_fc (s : State) (v : BitVec 16) : (s.putIcur v).fc = s.fc := rfl
@[simp] theorem State.putIcur_sc (s : State) (v : BitVec 16) : (s.putIcur v).sc = s.sc := rfl
@[simp] theorem State.putIcur_hd (s : State) (v : BitVec 16) : (s.putIcur v).hd = s.hd := rfl
@[simp] theorem State.putIcur_cap (s : State) (v : BitVec 16) : (s.putIcur v).cap = s.cap := rfl
@[simp] theorem State.putIcur_si (s : State) (v : BitVec 16) : (s.putIcur v).si = s.si := rfl
@[simp] theorem State.putIcur_ibuf (s : State) (v : BitVec 16) : (s.putIcur v).ibuf = s.ibuf := rfl
@[simp] theorem State.putIcur_obuf (s : State) (v : BitVec 16) : (s.putIcur v).obuf = s.obuf := rfl

/-! ## putOcur -/

@[simp] theorem State.putOcur_params (s : State) (v : BitVec 16) : (s.putOcur v).params = s.params := rfl
@[simp] theorem State.putOcur_env (s : State) (v : BitVec 16) : (s.putOcur v).env = s.env := rfl
@[simp] theorem State.putOcur_status (s : State) (v : BitVec 16) : (s.putOcur v).status = s.status := rfl
@[simp] theorem State.putOcur_errinfo (s : State) (v : BitVec 16) : (s.putOcur v).errinfo = s.errinfo := rfl
@[simp] theorem State.putOcur_icur (s : State) (v : BitVec 16) : (s.putOcur v).icur = s.icur := rfl
@[simp] theorem State.putOcur_ilen (s : State) (v : BitVec 16) : (s.putOcur v).ilen = s.ilen := rfl
@[simp] theorem State.putOcur_ocur (s : State) (v : BitVec 16) : (s.putOcur v).ocur = v := rfl
@[simp] theorem State.putOcur_ocap (s : State) (v : BitVec 16) : (s.putOcur v).ocap = s.ocap := rfl
@[simp] theorem State.putOcur_hsel (s : State) (v : BitVec 16) : (s.putOcur v).hsel = s.hsel := rfl
@[simp] theorem State.putOcur_fvar (s : State) (v : BitVec 16) : (s.putOcur v).fvar = s.fvar := rfl
@[simp] theorem State.putOcur_opa (s : State) (v : BitVec 16) : (s.putOcur v).opa = s.opa := rfl
@[simp] theorem State.putOcur_opb (s : State) (v : BitVec 16) : (s.putOcur v).opb = s.opb := rfl
@[simp] theorem State.putOcur_res (s : State) (v : BitVec 16) : (s.putOcur v).res = s.res := rfl
@[simp] theorem State.putOcur_fc (s : State) (v : BitVec 16) : (s.putOcur v).fc = s.fc := rfl
@[simp] theorem State.putOcur_sc (s : State) (v : BitVec 16) : (s.putOcur v).sc = s.sc := rfl
@[simp] theorem State.putOcur_hd (s : State) (v : BitVec 16) : (s.putOcur v).hd = s.hd := rfl
@[simp] theorem State.putOcur_cap (s : State) (v : BitVec 16) : (s.putOcur v).cap = s.cap := rfl
@[simp] theorem State.putOcur_si (s : State) (v : BitVec 16) : (s.putOcur v).si = s.si := rfl
@[simp] theorem State.putOcur_ibuf (s : State) (v : BitVec 16) : (s.putOcur v).ibuf = s.ibuf := rfl
@[simp] theorem State.putOcur_obuf (s : State) (v : BitVec 16) : (s.putOcur v).obuf = s.obuf := rfl

/-! ## finished -/

@[simp] theorem State.finished_params (s : State) : (s.finished).params = s.params := rfl
@[simp] theorem State.finished_env (s : State) : (s.finished).env = s.env := rfl
@[simp] theorem State.finished_status (s : State) : (s.finished).status = statusWord (statusSticky s.status) .ok := rfl
@[simp] theorem State.finished_errinfo (s : State) : (s.finished).errinfo = 0 := rfl
@[simp] theorem State.finished_icur (s : State) : (s.finished).icur = s.icur := rfl
@[simp] theorem State.finished_ilen (s : State) : (s.finished).ilen = s.ilen := rfl
@[simp] theorem State.finished_ocur (s : State) : (s.finished).ocur = s.ocur := rfl
@[simp] theorem State.finished_ocap (s : State) : (s.finished).ocap = s.ocap := rfl
@[simp] theorem State.finished_hsel (s : State) : (s.finished).hsel = s.hsel := rfl
@[simp] theorem State.finished_fvar (s : State) : (s.finished).fvar = s.fvar := rfl
@[simp] theorem State.finished_opa (s : State) : (s.finished).opa = s.opa := rfl
@[simp] theorem State.finished_opb (s : State) : (s.finished).opb = s.opb := rfl
@[simp] theorem State.finished_res (s : State) : (s.finished).res = s.res := rfl
@[simp] theorem State.finished_fc (s : State) : (s.finished).fc = s.fc := rfl
@[simp] theorem State.finished_sc (s : State) : (s.finished).sc = s.sc := rfl
@[simp] theorem State.finished_hd (s : State) : (s.finished).hd = s.hd := rfl
@[simp] theorem State.finished_cap (s : State) : (s.finished).cap = s.cap := rfl
@[simp] theorem State.finished_si (s : State) : (s.finished).si = s.si := rfl
@[simp] theorem State.finished_ibuf (s : State) : (s.finished).ibuf = s.ibuf := rfl
@[simp] theorem State.finished_obuf (s : State) : (s.finished).obuf = s.obuf := rfl

/-! ## raised -/

@[simp] theorem State.raised_params (s : State) (r : Report) : (s.raised r).params = s.params := rfl
@[simp] theorem State.raised_env (s : State) (r : Report) : (s.raised r).env = s.env := rfl
@[simp] theorem State.raised_status (s : State) (r : Report) : (s.raised r).status = statusWord 1 r.code := rfl
@[simp] theorem State.raised_errinfo (s : State) (r : Report) : (s.raised r).errinfo = r.info := rfl
@[simp] theorem State.raised_icur (s : State) (r : Report) : (s.raised r).icur = s.icur := rfl
@[simp] theorem State.raised_ilen (s : State) (r : Report) : (s.raised r).ilen = s.ilen := rfl
@[simp] theorem State.raised_ocur (s : State) (r : Report) : (s.raised r).ocur = s.ocur := rfl
@[simp] theorem State.raised_ocap (s : State) (r : Report) : (s.raised r).ocap = s.ocap := rfl
@[simp] theorem State.raised_hsel (s : State) (r : Report) : (s.raised r).hsel = s.hsel := rfl
@[simp] theorem State.raised_fvar (s : State) (r : Report) : (s.raised r).fvar = s.fvar := rfl
@[simp] theorem State.raised_opa (s : State) (r : Report) : (s.raised r).opa = s.opa := rfl
@[simp] theorem State.raised_opb (s : State) (r : Report) : (s.raised r).opb = s.opb := rfl
@[simp] theorem State.raised_res (s : State) (r : Report) : (s.raised r).res = s.res := rfl
@[simp] theorem State.raised_fc (s : State) (r : Report) : (s.raised r).fc = s.fc := rfl
@[simp] theorem State.raised_sc (s : State) (r : Report) : (s.raised r).sc = s.sc := rfl
@[simp] theorem State.raised_hd (s : State) (r : Report) : (s.raised r).hd = s.hd := rfl
@[simp] theorem State.raised_cap (s : State) (r : Report) : (s.raised r).cap = s.cap := rfl
@[simp] theorem State.raised_si (s : State) (r : Report) : (s.raised r).si = s.si := rfl
@[simp] theorem State.raised_ibuf (s : State) (r : Report) : (s.raised r).ibuf = s.ibuf := rfl
@[simp] theorem State.raised_obuf (s : State) (r : Report) : (s.raised r).obuf = s.obuf := rfl

/-! ## withScript -/

@[simp] theorem State.withScript_params (s : State) (rest : List HostAction) : (s.withScript rest).params = s.params := rfl
@[simp] theorem State.withScript_env (s : State) (rest : List HostAction) : (s.withScript rest).env = { s.env with script := rest } := rfl
@[simp] theorem State.withScript_status (s : State) (rest : List HostAction) : (s.withScript rest).status = s.status := rfl
@[simp] theorem State.withScript_errinfo (s : State) (rest : List HostAction) : (s.withScript rest).errinfo = s.errinfo := rfl
@[simp] theorem State.withScript_icur (s : State) (rest : List HostAction) : (s.withScript rest).icur = s.icur := rfl
@[simp] theorem State.withScript_ilen (s : State) (rest : List HostAction) : (s.withScript rest).ilen = s.ilen := rfl
@[simp] theorem State.withScript_ocur (s : State) (rest : List HostAction) : (s.withScript rest).ocur = s.ocur := rfl
@[simp] theorem State.withScript_ocap (s : State) (rest : List HostAction) : (s.withScript rest).ocap = s.ocap := rfl
@[simp] theorem State.withScript_hsel (s : State) (rest : List HostAction) : (s.withScript rest).hsel = s.hsel := rfl
@[simp] theorem State.withScript_fvar (s : State) (rest : List HostAction) : (s.withScript rest).fvar = s.fvar := rfl
@[simp] theorem State.withScript_opa (s : State) (rest : List HostAction) : (s.withScript rest).opa = s.opa := rfl
@[simp] theorem State.withScript_opb (s : State) (rest : List HostAction) : (s.withScript rest).opb = s.opb := rfl
@[simp] theorem State.withScript_res (s : State) (rest : List HostAction) : (s.withScript rest).res = s.res := rfl
@[simp] theorem State.withScript_fc (s : State) (rest : List HostAction) : (s.withScript rest).fc = s.fc := rfl
@[simp] theorem State.withScript_sc (s : State) (rest : List HostAction) : (s.withScript rest).sc = s.sc := rfl
@[simp] theorem State.withScript_hd (s : State) (rest : List HostAction) : (s.withScript rest).hd = s.hd := rfl
@[simp] theorem State.withScript_cap (s : State) (rest : List HostAction) : (s.withScript rest).cap = s.cap := rfl
@[simp] theorem State.withScript_si (s : State) (rest : List HostAction) : (s.withScript rest).si = s.si := rfl
@[simp] theorem State.withScript_ibuf (s : State) (rest : List HostAction) : (s.withScript rest).ibuf = s.ibuf := rfl
@[simp] theorem State.withScript_obuf (s : State) (rest : List HostAction) : (s.withScript rest).obuf = s.obuf := rfl

/-! ## noteRead -/

@[simp] theorem State.noteRead_params (s : State) (v : HostValue) : (s.noteRead v).params = s.params := rfl
@[simp] theorem State.noteRead_env (s : State) (v : HostValue) : (s.noteRead v).env = { s.env with lastRead := some v } := rfl
@[simp] theorem State.noteRead_status (s : State) (v : HostValue) : (s.noteRead v).status = s.status := rfl
@[simp] theorem State.noteRead_errinfo (s : State) (v : HostValue) : (s.noteRead v).errinfo = s.errinfo := rfl
@[simp] theorem State.noteRead_icur (s : State) (v : HostValue) : (s.noteRead v).icur = s.icur := rfl
@[simp] theorem State.noteRead_ilen (s : State) (v : HostValue) : (s.noteRead v).ilen = s.ilen := rfl
@[simp] theorem State.noteRead_ocur (s : State) (v : HostValue) : (s.noteRead v).ocur = s.ocur := rfl
@[simp] theorem State.noteRead_ocap (s : State) (v : HostValue) : (s.noteRead v).ocap = s.ocap := rfl
@[simp] theorem State.noteRead_hsel (s : State) (v : HostValue) : (s.noteRead v).hsel = s.hsel := rfl
@[simp] theorem State.noteRead_fvar (s : State) (v : HostValue) : (s.noteRead v).fvar = s.fvar := rfl
@[simp] theorem State.noteRead_opa (s : State) (v : HostValue) : (s.noteRead v).opa = s.opa := rfl
@[simp] theorem State.noteRead_opb (s : State) (v : HostValue) : (s.noteRead v).opb = s.opb := rfl
@[simp] theorem State.noteRead_res (s : State) (v : HostValue) : (s.noteRead v).res = s.res := rfl
@[simp] theorem State.noteRead_fc (s : State) (v : HostValue) : (s.noteRead v).fc = s.fc := rfl
@[simp] theorem State.noteRead_sc (s : State) (v : HostValue) : (s.noteRead v).sc = s.sc := rfl
@[simp] theorem State.noteRead_hd (s : State) (v : HostValue) : (s.noteRead v).hd = s.hd := rfl
@[simp] theorem State.noteRead_cap (s : State) (v : HostValue) : (s.noteRead v).cap = s.cap := rfl
@[simp] theorem State.noteRead_si (s : State) (v : HostValue) : (s.noteRead v).si = s.si := rfl
@[simp] theorem State.noteRead_ibuf (s : State) (v : HostValue) : (s.noteRead v).ibuf = s.ibuf := rfl
@[simp] theorem State.noteRead_obuf (s : State) (v : HostValue) : (s.noteRead v).obuf = s.obuf := rfl

/-! ## registersReset -/

@[simp] theorem State.registersReset_params (s : State) : s.registersReset.params = s.params := rfl
@[simp] theorem State.registersReset_env (s : State) : s.registersReset.env = s.env := rfl
@[simp] theorem State.registersReset_status (s : State) : s.registersReset.status = (State.resetWith s.params).status := rfl
@[simp] theorem State.registersReset_errinfo (s : State) : s.registersReset.errinfo = (State.resetWith s.params).errinfo := rfl
@[simp] theorem State.registersReset_icur (s : State) : s.registersReset.icur = (State.resetWith s.params).icur := rfl
@[simp] theorem State.registersReset_ilen (s : State) : s.registersReset.ilen = (State.resetWith s.params).ilen := rfl
@[simp] theorem State.registersReset_ocur (s : State) : s.registersReset.ocur = (State.resetWith s.params).ocur := rfl
@[simp] theorem State.registersReset_ocap (s : State) : s.registersReset.ocap = (State.resetWith s.params).ocap := rfl
@[simp] theorem State.registersReset_hsel (s : State) : s.registersReset.hsel = (State.resetWith s.params).hsel := rfl
@[simp] theorem State.registersReset_fvar (s : State) : s.registersReset.fvar = (State.resetWith s.params).fvar := rfl
@[simp] theorem State.registersReset_opa (s : State) : s.registersReset.opa = (State.resetWith s.params).opa := rfl
@[simp] theorem State.registersReset_opb (s : State) : s.registersReset.opb = (State.resetWith s.params).opb := rfl
@[simp] theorem State.registersReset_res (s : State) : s.registersReset.res = (State.resetWith s.params).res := rfl
@[simp] theorem State.registersReset_fc (s : State) : s.registersReset.fc = (State.resetWith s.params).fc := rfl
@[simp] theorem State.registersReset_sc (s : State) : s.registersReset.sc = (State.resetWith s.params).sc := rfl
@[simp] theorem State.registersReset_hd (s : State) : s.registersReset.hd = (State.resetWith s.params).hd := rfl
@[simp] theorem State.registersReset_cap (s : State) : s.registersReset.cap = (State.resetWith s.params).cap := rfl
@[simp] theorem State.registersReset_si (s : State) : s.registersReset.si = (State.resetWith s.params).si := rfl
@[simp] theorem State.registersReset_ibuf (s : State) : s.registersReset.ibuf = s.ibuf := rfl
@[simp] theorem State.registersReset_obuf (s : State) : s.registersReset.obuf = s.obuf := rfl

/-! ## resetWith -/

@[simp] theorem State.resetWith_params (p : Params) : (State.resetWith p).params = p := rfl
@[simp] theorem State.resetWith_env (p : Params) : (State.resetWith p).env = ⟨[], 0, 0, none⟩ := rfl
@[simp] theorem State.resetWith_status (p : Params) : (State.resetWith p).status = 0 := rfl
@[simp] theorem State.resetWith_errinfo (p : Params) : (State.resetWith p).errinfo = 0 := rfl
@[simp] theorem State.resetWith_icur (p : Params) : (State.resetWith p).icur = 0 := rfl
@[simp] theorem State.resetWith_ilen (p : Params) : (State.resetWith p).ilen = 0 := rfl
@[simp] theorem State.resetWith_ocur (p : Params) : (State.resetWith p).ocur = 0 := rfl
@[simp] theorem State.resetWith_ocap (p : Params) : (State.resetWith p).ocap = 0 := rfl
@[simp] theorem State.resetWith_hsel (p : Params) : (State.resetWith p).hsel = 0 := rfl
@[simp] theorem State.resetWith_fvar (p : Params) : (State.resetWith p).fvar = 0 := rfl
@[simp] theorem State.resetWith_opa (p : Params) : (State.resetWith p).opa = 0 := rfl
@[simp] theorem State.resetWith_opb (p : Params) : (State.resetWith p).opb = 0 := rfl
@[simp] theorem State.resetWith_res (p : Params) : (State.resetWith p).res = 0 := rfl
@[simp] theorem State.resetWith_fc (p : Params) : (State.resetWith p).fc = ⟨0, 0, resetSub p, 0⟩ := rfl
@[simp] theorem State.resetWith_sc (p : Params) : (State.resetWith p).sc = ⟨0, 0⟩ := rfl
@[simp] theorem State.resetWith_hd (p : Params) : (State.resetWith p).hd = ⟨0, 0, 0, 0, zeroMac, zeroMac, zeroMac, zeroMac⟩ := rfl
@[simp] theorem State.resetWith_cap (p : Params) : (State.resetWith p).cap = 0 := rfl
@[simp] theorem State.resetWith_si (p : Params) : (State.resetWith p).si = emptyStationInfo := rfl
@[simp] theorem State.resetWith_ibuf (p : Params) : (State.resetWith p).ibuf = [] := rfl
@[simp] theorem State.resetWith_obuf (p : Params) : (State.resetWith p).obuf = [] := rfl

/-! ## What reads of the state see of an update -/

@[simp] theorem State.advanceIcur_room (s : State) (n : Nat) : (s.advanceIcur n).room = s.room := rfl
@[simp] theorem State.advanceIcur_ibufByte (s : State) (n : Nat) (a : Nat) : (s.advanceIcur n).ibufByte a = s.ibufByte a := rfl
@[simp] theorem State.advanceIcur_memRead (s : State) (n : Nat) (a k : Nat) : (s.advanceIcur n).memRead a k = s.memRead a k := rfl
@[simp] theorem State.advanceIcur_obufByte (s : State) (n : Nat) (a : Nat) : (s.advanceIcur n).obufByte a = s.obufByte a := rfl
@[simp] theorem State.emit_avail (s : State) (out : List Byte) : (s.emit out).avail = s.avail := rfl
@[simp] theorem State.emit_ibufByte (s : State) (out : List Byte) (a : Nat) : (s.emit out).ibufByte a = s.ibufByte a := rfl
@[simp] theorem State.emit_memRead (s : State) (out : List Byte) (a k : Nat) : (s.emit out).memRead a k = s.memRead a k := rfl
@[simp] theorem State.putFc_avail (s : State) (v : FrameControl) : (s.putFc v).avail = s.avail := rfl
@[simp] theorem State.putFc_room (s : State) (v : FrameControl) : (s.putFc v).room = s.room := rfl
@[simp] theorem State.putFc_ibufByte (s : State) (v : FrameControl) (a : Nat) : (s.putFc v).ibufByte a = s.ibufByte a := rfl
@[simp] theorem State.putFc_memRead (s : State) (v : FrameControl) (a k : Nat) : (s.putFc v).memRead a k = s.memRead a k := rfl
@[simp] theorem State.putFc_obufByte (s : State) (v : FrameControl) (a : Nat) : (s.putFc v).obufByte a = s.obufByte a := rfl
@[simp] theorem State.putSc_avail (s : State) (v : SeqControl) : (s.putSc v).avail = s.avail := rfl
@[simp] theorem State.putSc_room (s : State) (v : SeqControl) : (s.putSc v).room = s.room := rfl
@[simp] theorem State.putSc_ibufByte (s : State) (v : SeqControl) (a : Nat) : (s.putSc v).ibufByte a = s.ibufByte a := rfl
@[simp] theorem State.putSc_memRead (s : State) (v : SeqControl) (a k : Nat) : (s.putSc v).memRead a k = s.memRead a k := rfl
@[simp] theorem State.putSc_obufByte (s : State) (v : SeqControl) (a : Nat) : (s.putSc v).obufByte a = s.obufByte a := rfl
@[simp] theorem State.putHd_avail (s : State) (v : Header) : (s.putHd v).avail = s.avail := rfl
@[simp] theorem State.putHd_room (s : State) (v : Header) : (s.putHd v).room = s.room := rfl
@[simp] theorem State.putHd_ibufByte (s : State) (v : Header) (a : Nat) : (s.putHd v).ibufByte a = s.ibufByte a := rfl
@[simp] theorem State.putHd_memRead (s : State) (v : Header) (a k : Nat) : (s.putHd v).memRead a k = s.memRead a k := rfl
@[simp] theorem State.putHd_obufByte (s : State) (v : Header) (a : Nat) : (s.putHd v).obufByte a = s.obufByte a := rfl
@[simp] theorem State.putCap_avail (s : State) (v : BitVec 16) : (s.putCap v).avail = s.avail := rfl
@[simp] theorem State.putCap_room (s : State) (v : BitVec 16) : (s.putCap v).room = s.room := rfl
@[simp] theorem State.putCap_ibufByte (s : State) (v : BitVec 16) (a : Nat) : (s.putCap v).ibufByte a = s.ibufByte a := rfl
@[simp] theorem State.putCap_memRead (s : State) (v : BitVec 16) (a k : Nat) : (s.putCap v).memRead a k = s.memRead a k := rfl
@[simp] theorem State.putCap_obufByte (s : State) (v : BitVec 16) (a : Nat) : (s.putCap v).obufByte a = s.obufByte a := rfl
@[simp] theorem State.putSi_avail (s : State) (v : StationInfo) : (s.putSi v).avail = s.avail := rfl
@[simp] theorem State.putSi_room (s : State) (v : StationInfo) : (s.putSi v).room = s.room := rfl
@[simp] theorem State.putSi_ibufByte (s : State) (v : StationInfo) (a : Nat) : (s.putSi v).ibufByte a = s.ibufByte a := rfl
@[simp] theorem State.putSi_memRead (s : State) (v : StationInfo) (a k : Nat) : (s.putSi v).memRead a k = s.memRead a k := rfl
@[simp] theorem State.putSi_obufByte (s : State) (v : StationInfo) (a : Nat) : (s.putSi v).obufByte a = s.obufByte a := rfl
@[simp] theorem State.putRes_avail (s : State) (v : BitVec 32) : (s.putRes v).avail = s.avail := rfl
@[simp] theorem State.putRes_room (s : State) (v : BitVec 32) : (s.putRes v).room = s.room := rfl
@[simp] theorem State.putRes_ibufByte (s : State) (v : BitVec 32) (a : Nat) : (s.putRes v).ibufByte a = s.ibufByte a := rfl
@[simp] theorem State.putRes_memRead (s : State) (v : BitVec 32) (a k : Nat) : (s.putRes v).memRead a k = s.memRead a k := rfl
@[simp] theorem State.putRes_obufByte (s : State) (v : BitVec 32) (a : Nat) : (s.putRes v).obufByte a = s.obufByte a := rfl
@[simp] theorem State.putHsel_avail (s : State) (v : BitVec 8) : (s.putHsel v).avail = s.avail := rfl
@[simp] theorem State.putHsel_room (s : State) (v : BitVec 8) : (s.putHsel v).room = s.room := rfl
@[simp] theorem State.putHsel_ibufByte (s : State) (v : BitVec 8) (a : Nat) : (s.putHsel v).ibufByte a = s.ibufByte a := rfl
@[simp] theorem State.putHsel_memRead (s : State) (v : BitVec 8) (a k : Nat) : (s.putHsel v).memRead a k = s.memRead a k := rfl
@[simp] theorem State.putHsel_obufByte (s : State) (v : BitVec 8) (a : Nat) : (s.putHsel v).obufByte a = s.obufByte a := rfl
@[simp] theorem State.putIcur_room (s : State) (v : BitVec 16) : (s.putIcur v).room = s.room := rfl
@[simp] theorem State.putIcur_ibufByte (s : State) (v : BitVec 16) (a : Nat) : (s.putIcur v).ibufByte a = s.ibufByte a := rfl
@[simp] theorem State.putIcur_memRead (s : State) (v : BitVec 16) (a k : Nat) : (s.putIcur v).memRead a k = s.memRead a k := rfl
@[simp] theorem State.putIcur_obufByte (s : State) (v : BitVec 16) (a : Nat) : (s.putIcur v).obufByte a = s.obufByte a := rfl
@[simp] theorem State.putOcur_avail (s : State) (v : BitVec 16) : (s.putOcur v).avail = s.avail := rfl
@[simp] theorem State.putOcur_ibufByte (s : State) (v : BitVec 16) (a : Nat) : (s.putOcur v).ibufByte a = s.ibufByte a := rfl
@[simp] theorem State.putOcur_memRead (s : State) (v : BitVec 16) (a k : Nat) : (s.putOcur v).memRead a k = s.memRead a k := rfl
@[simp] theorem State.putOcur_obufByte (s : State) (v : BitVec 16) (a : Nat) : (s.putOcur v).obufByte a = s.obufByte a := rfl
@[simp] theorem State.finished_avail (s : State) : (s.finished).avail = s.avail := rfl
@[simp] theorem State.finished_room (s : State) : (s.finished).room = s.room := rfl
@[simp] theorem State.finished_ibufByte (s : State) (a : Nat) : (s.finished).ibufByte a = s.ibufByte a := rfl
@[simp] theorem State.finished_memRead (s : State) (a k : Nat) : (s.finished).memRead a k = s.memRead a k := rfl
@[simp] theorem State.finished_obufByte (s : State) (a : Nat) : (s.finished).obufByte a = s.obufByte a := rfl
@[simp] theorem State.raised_avail (s : State) (r : Report) : (s.raised r).avail = s.avail := rfl
@[simp] theorem State.raised_room (s : State) (r : Report) : (s.raised r).room = s.room := rfl
@[simp] theorem State.raised_ibufByte (s : State) (r : Report) (a : Nat) : (s.raised r).ibufByte a = s.ibufByte a := rfl
@[simp] theorem State.raised_memRead (s : State) (r : Report) (a k : Nat) : (s.raised r).memRead a k = s.memRead a k := rfl
@[simp] theorem State.raised_obufByte (s : State) (r : Report) (a : Nat) : (s.raised r).obufByte a = s.obufByte a := rfl
@[simp] theorem State.withScript_avail (s : State) (rest : List HostAction) : (s.withScript rest).avail = s.avail := rfl
@[simp] theorem State.withScript_room (s : State) (rest : List HostAction) : (s.withScript rest).room = s.room := rfl
@[simp] theorem State.withScript_ibufByte (s : State) (rest : List HostAction) (a : Nat) : (s.withScript rest).ibufByte a = s.ibufByte a := rfl
@[simp] theorem State.withScript_memRead (s : State) (rest : List HostAction) (a k : Nat) : (s.withScript rest).memRead a k = s.memRead a k := rfl
@[simp] theorem State.withScript_obufByte (s : State) (rest : List HostAction) (a : Nat) : (s.withScript rest).obufByte a = s.obufByte a := rfl
@[simp] theorem State.noteRead_avail (s : State) (v : HostValue) : (s.noteRead v).avail = s.avail := rfl
@[simp] theorem State.noteRead_room (s : State) (v : HostValue) : (s.noteRead v).room = s.room := rfl
@[simp] theorem State.noteRead_ibufByte (s : State) (v : HostValue) (a : Nat) : (s.noteRead v).ibufByte a = s.ibufByte a := rfl
@[simp] theorem State.noteRead_memRead (s : State) (v : HostValue) (a k : Nat) : (s.noteRead v).memRead a k = s.memRead a k := rfl
@[simp] theorem State.noteRead_obufByte (s : State) (v : HostValue) (a : Nat) : (s.noteRead v).obufByte a = s.obufByte a := rfl

end Sys2Proof.Machine
end

