-- ==== Sys2Proof/Laws/Memory.lean ====
section
/-! SUPPORT. The laws of the buffers: a read after a write, and the canonical form that every memory operation keeps. -/

namespace Sys2Proof.Machine

theorem Memory.read_write_same (m : Memory) (a : Nat) (v : Byte) : Memory.read (Memory.write m a v) a = some v := by
  induction m with
  | nil => simp [Memory.write, Memory.read]
  | cons c m ih =>
    obtain ⟨b, w⟩ := c
    simp only [Memory.write]
    split
    · simp [Memory.read]
    · split
      · simp [Memory.read]
      · simp [Memory.read, *]

theorem Memory.read_write_other (m : Memory) (a a' : Nat) (v : Byte) (h : a' ≠ a) :
    Memory.read (Memory.write m a v) a' = Memory.read m a' := by
  induction m with
  | nil => simp [Memory.write, Memory.read, h]
  | cons c m ih =>
    obtain ⟨b, w⟩ := c
    simp only [Memory.write]
    split
    · simp [Memory.read, h]
    · split
      · next hb => subst hb; simp [Memory.read, h]
      · simp [Memory.read, ih]

/-- Everything a read after one write can give. -/
theorem Memory.read_write (m : Memory) (a a' : Nat) (v : Byte) :
    Memory.read (Memory.write m a v) a' = if a' = a then some v else Memory.read m a' := by
  split
  · next h => rw [h, Memory.read_write_same]
  · next h => exact Memory.read_write_other m a a' v h

/-- A byte sequence written leaves every byte outside it. -/
theorem Memory.read_writeAll_outside (bs : List Byte) (m : Memory) (a a' : Nat) (h : a' < a ∨ a + bs.length ≤ a') :
    Memory.read (Memory.writeAll m a bs) a' = Memory.read m a' := by
  induction bs generalizing m a with
  | nil => rfl
  | cons b bs ih =>
    simp only [List.length_cons] at h
    rw [Memory.writeAll, ih _ _ (by omega), Memory.read_write_other _ _ _ _ (by omega)]

/-- A byte sequence written reads back. -/
theorem Memory.read_writeAll_inside (bs : List Byte) (m : Memory) (a i : Nat) (h : i < bs.length) :
    Memory.read (Memory.writeAll m a bs) (a + i) = some bs[i] := by
  induction bs generalizing m a i with
  | nil => simp at h
  | cons b bs ih =>
    rw [Memory.writeAll]
    cases i with
    | zero => rw [Memory.read_writeAll_outside _ _ _ _ (by omega)]; simp [Memory.read_write_same]
    | succ i =>
      have := ih (Memory.write m a b) (a + 1) i (by simpa using h)
      rw [show a + (i + 1) = a + 1 + i by omega, this]; simp

/-- Which indexes a write lists. -/
theorem Memory.mem_write_index (m : Memory) (a : Nat) (v : Byte) (x : Nat) :
    x ∈ (Memory.write m a v).map Prod.fst ↔ x = a ∨ x ∈ m.map Prod.fst := by
  induction m with
  | nil => simp [Memory.write]
  | cons c m ih =>
    obtain ⟨b, w⟩ := c
    simp only [Memory.write]
    split
    · simp
    · split
      · next hb => subst hb; simp
      · simp only [List.map_cons, List.mem_cons, ih]; tauto

theorem Memory.write_wf (m : Memory) (a : Nat) (v : Byte) (h : Memory.wf m) : Memory.wf (Memory.write m a v) := by
  induction m with
  | nil => simp [Memory.write, Memory.wf]
  | cons c m ih =>
    obtain ⟨b, w⟩ := c
    simp only [Memory.wf, List.map_cons, List.pairwise_cons] at h ⊢
    simp only [Memory.write]
    split
    · next hab =>
      simp only [List.map_cons, List.pairwise_cons, List.mem_cons]
      refine ⟨?_, h⟩
      rintro x (rfl | hx)
      · exact hab
      · exact lt_trans hab (h.1 x hx)
    · split
      · next hab => subst hab; simpa using h
      · next h1 h2 =>
        simp only [List.map_cons, List.pairwise_cons]
        refine ⟨fun x hx => ?_, ih h.2⟩
        rcases (Memory.mem_write_index m a v x).1 hx with rfl | hx
        · omega
        · exact h.1 x hx

theorem Memory.writeAll_wf (bs : List Byte) (m : Memory) (a : Nat) (h : Memory.wf m) :
    Memory.wf (Memory.writeAll m a bs) := by
  induction bs generalizing m a with
  | nil => exact h
  | cons b bs ih => exact ih _ _ (Memory.write_wf m a b h)

/-- A write inside the buffer lists only indexes of the buffer. -/
theorem Memory.write_within (cap : Nat) (m : Memory) (a : Nat) (v : Byte) (h : Memory.within cap m) (ha : a < cap) :
    Memory.within cap (Memory.write m a v) := by
  intro c hc
  rcases (Memory.mem_write_index m a v c.1).1 (List.mem_map_of_mem hc) with h1 | h1
  · omega
  · obtain ⟨d, hd, hdc⟩ := List.mem_map.1 h1
    rw [← hdc]; exact h d hd

theorem Memory.writeAll_within (cap : Nat) (bs : List Byte) (m : Memory) (a : Nat) (h : Memory.within cap m)
    (ha : a + bs.length ≤ cap) : Memory.within cap (Memory.writeAll m a bs) := by
  induction bs generalizing m a with
  | nil => exact h
  | cons b bs ih =>
    simp only [List.length_cons] at ha
    exact ih _ _ (Memory.write_within cap m a b h (by omega)) (by omega)

/-- The buffers after reset are in canonical form. -/
theorem State.resetWith_buffers_wf (p : Params) :
    Memory.wf (State.resetWith p).ibuf ∧ Memory.wf (State.resetWith p).obuf := by
  simp [Memory.wf]

theorem State.reset_buffers_wf : Memory.wf State.reset.ibuf ∧ Memory.wf State.reset.obuf :=
  State.resetWith_buffers_wf defaultParams

/-- What `OBUF` reads as after an operation wrote `out` at `OCUR`, inside. -/
theorem State.emit_obufByte_inside (s : State) (out : List Byte) (i : Nat) (h : i < out.length) :
    (s.emit out).obufByte (s.ocur.toNat + i) = out[i] := by
  simp [State.obufByte, Memory.read_writeAll_inside out s.obuf _ i h]

/-- What `OBUF` reads as after an operation wrote `out` at `OCUR`, outside. -/
theorem State.emit_obufByte_outside (s : State) (out : List Byte) (a : Nat)
    (h : a < s.ocur.toNat ∨ s.ocur.toNat + out.length ≤ a) : (s.emit out).obufByte a = s.obufByte a := by
  simp [State.obufByte, Memory.read_writeAll_outside out s.obuf _ a h]

end Sys2Proof.Machine
end

