-- ==== Sys2Proof/Laws/Ops.lean ====
section
/-! SUPPORT. For each shared operation, once, everything it can do. -/

namespace Sys2Proof.Machine

/-! ## Bytes and STATUS -/

@[simp] theorem State.memRead_length (s : State) (a n : Nat) : (s.memRead a n).length = n := by
  simp [State.memRead]

/-- An element of what `MemRead` gives is the byte at its index. -/
theorem State.byteAt_memRead (s : State) (a n i : Nat) (h : i < n) : byteAt (s.memRead a n) i = s.ibufByte (a + i) := by
  simp [byteAt, State.memRead, h]

/-- An element of a slice of a sequence. -/
theorem byteAt_slice (b : List Byte) (lo hi i : Nat) (h : i < hi - lo) : byteAt (slice b lo hi) i = byteAt b (lo + i) := by
  simp [byteAt, slice, h]

@[simp] theorem statusCode_statusWord (st : BitVec 1) (c : Code) : statusCode (statusWord st c) = c.number := by
  revert st; cases c <;> decide

@[simp] theorem statusSticky_statusWord (st : BitVec 1) (c : Code) : statusSticky (statusWord st c) = st := by
  revert st; cases c <;> decide

@[simp] theorem MacAddr.bytes_length (m : MacAddr) : m.bytes.length = 6 := rfl

@[simp] theorem macOf_bytes (m : MacAddr) : macOf m.bytes = m := rfl

@[simp] theorem bytesLe16_length (v : BitVec 16) : (bytesLe16 v).length = 2 := rfl

@[simp] theorem scPack_length (sc : SeqControl) : (scPack sc).length = 2 := rfl

/-! ## Ending and raising -/

theorem finish_eq_next (s : State) : finish s = .next s.finished := rfl

theorem raise_eq_next (r : Report) (s : State) : raise r s = .next (s.raised r) := rfl

@[simp] theorem finish_next_iff (s t : State) : finish s = .next t ↔ s.finished = t := by
  simp [finish]

@[simp] theorem raise_next_iff (r : Report) (s t : State) : raise r s = .next t ↔ s.raised r = t := by
  simp [raise]

/-! ## The shapes of operations -/

/-- Everything a decode operation can do. -/
theorem decodeAtIcur_cases (n : Nat) (put : List Byte → State → State) (s t : State)
    (h : decodeAtIcur n put s = .next t) :
    (s.avail < n ∧ t = s.raised (incomplete (n - s.avail))) ∨
      (n ≤ s.avail ∧ t = ((put (s.memRead s.icur.toNat n) s).advanceIcur n).finished) := by
  unfold decodeAtIcur at h
  split at h
  · exact .inl ⟨‹_›, ((raise_next_iff _ _ _).1 h).symm⟩
  · exact .inr ⟨by omega, ((finish_next_iff _ _).1 h).symm⟩

theorem decodeAtIcur_short (n : Nat) (put : List Byte → State → State) (s : State) (h : s.avail < n) :
    decodeAtIcur n put s = .next (s.raised (incomplete (n - s.avail))) := by
  simp [decodeAtIcur, h, raise]

theorem decodeAtIcur_enough (n : Nat) (put : List Byte → State → State) (s : State) (h : n ≤ s.avail) :
    decodeAtIcur n put s = .next ((put (s.memRead s.icur.toNat n) s).advanceIcur n).finished := by
  simp [decodeAtIcur, Nat.not_lt.2 h, finish]

/-- Everything an encode operation can do. -/
theorem encodeAtOcur_cases (out : List Byte) (s t : State) (h : encodeAtOcur out s = .next t) :
    (s.room < out.length ∧ t = s.raised (bufferTooSmall s out.length)) ∨
      (out.length ≤ s.room ∧ t = (s.emit out).finished) := by
  unfold encodeAtOcur at h
  split at h
  · exact .inl ⟨‹_›, ((raise_next_iff _ _ _).1 h).symm⟩
  · exact .inr ⟨by omega, ((finish_next_iff _ _).1 h).symm⟩

theorem encodeAtOcur_full (out : List Byte) (s : State) (h : s.room < out.length) :
    encodeAtOcur out s = .next (s.raised (bufferTooSmall s out.length)) := by
  simp [encodeAtOcur, h, raise]

theorem encodeAtOcur_fits (out : List Byte) (s : State) (h : out.length ≤ s.room) :
    encodeAtOcur out s = .next (s.emit out).finished := by
  simp [encodeAtOcur, Nat.not_lt.2 h, finish]

/-- Everything FCENC, MHENC and DHENC can do. -/
theorem encodeAfterFc_cases (rest : List Byte) (s t : State) (h : encodeAfterFc rest s = .next t) :
    (∃ r, fcPack s.params s.fc = .error r ∧ t = s.raised r) ∨
      (∃ w, fcPack s.params s.fc = .ok w ∧
        ((s.room < (w ++ rest).length ∧ t = s.raised (bufferTooSmall s (w ++ rest).length)) ∨
          ((w ++ rest).length ≤ s.room ∧ t = (s.emit (w ++ rest)).finished))) := by
  unfold encodeAfterFc at h
  split at h
  · next r hr => exact .inl ⟨r, hr, ((raise_next_iff _ _ _).1 h).symm⟩
  · next w hw => exact .inr ⟨w, hw, encodeAtOcur_cases _ _ _ h⟩

/-- Everything the selection of DISP and PARSE can do. -/
theorem selectHandler_cases (remaining : Nat) (s t : State) (h : selectHandler remaining s = .next t) :
    (∃ v, handlerOf s.params s.fc = some v ∧ t = (s.putHsel v).finished) ∨
      (handlerOf s.params s.fc = none ∧ t = s.raised ⟨.unhandledFrameSubtype, BitVec.ofNat 32 remaining⟩) := by
  unfold selectHandler at h
  split at h
  · next v hv => exact .inl ⟨v, hv, ((finish_next_iff _ _).1 h).symm⟩
  · next hv => exact .inr ⟨hv, ((raise_next_iff _ _ _).1 h).symm⟩

/-! ## The host's side -/

/-- Everything a step can do. -/
theorem step_cases (s : State) :
    (s.env.script = [] ∧ step s = .next s) ∨
      (∃ a rest, s.env.script = a :: rest ∧ step s = runAction a (s.withScript rest)) := by
  unfold step runNext
  split
  · next h => exact .inl ⟨h, rfl⟩
  · next a rest h => exact .inr ⟨a, rest, h, rfl⟩

/-- Everything a command word can do. -/
theorem runCommand_cases (w : CommandWord) (s : State) :
    (∃ i, decode w = .ok i ∧ runCommand w s = exec i s) ∨
      (∃ e, decode w = .error e ∧ runCommand w s = .next (s.raised (illegalCommand w))) := by
  unfold runCommand
  split
  · next i h => exact .inl ⟨i, h, rfl⟩
  · next e h => exact .inr ⟨e, h, rfl⟩

end Sys2Proof.Machine
end

