-- ==== Sys2Proof/Laws/Codec.lean ====
section
/-! SUPPORT. The small lemmas of the pure codecs: the subtype mapper, the text decoder, the element loop. -/

namespace Sys2Proof.Machine

/-! ## The subtype mapper -/

/-- The two halves of a register code. -/
@[simp] theorem category_append (t : BitVec 2) (n : BitVec 4) : ((t ++ n : BitVec (2 + 4)) : BitVec 6).extractLsb' 4 2 = t := by
  revert t n; decide

@[simp] theorem nibble_append (t : BitVec 2) (n : BitVec 4) : ((t ++ n : BitVec (2 + 4)) : BitVec 6).extractLsb' 0 4 = n := by
  revert t n; decide

theorem append_halves (sub : BitVec 6) : ((sub.extractLsb' 4 2 ++ sub.extractLsb' 0 4 : BitVec (2 + 4)) : BitVec 6) = sub := by
  revert sub; decide

/-- A table entry that names a subtype is one of a frame type that has a table. -/
theorem tableEntry_named_type {p : Params} {t : FrameType} {nib : BitVec 4} {n : SubtypeName}
    (h : tableEntry p t nib = .named n) : t ≠ .unknown := by
  rintro rfl; simp [tableEntry] at h

theorem frameTypeOf_unknown_iff (t : BitVec 2) : frameTypeOf t = .unknown ↔ t = 3 := by
  revert t; decide

/-- A code with a category below 3 is no sentinel. -/
theorem append_ne_sentinel (t : BitVec 2) (nib : BitVec 4) (h : t ≠ 3) :
    ((t ++ nib : BitVec (2 + 4)) : BitVec 6) ≠ subReserved ∧ ((t ++ nib : BitVec (2 + 4)) : BitVec 6) ≠ subUnhandled := by
  revert t nib; decide

/-- The name of a code is the entry of its category's table. -/
theorem nameOfCode_append (p : Params) (t : BitVec 2) (nib : BitVec 4) (n : SubtypeName) :
    nameOfCode p (t ++ nib) = some n ↔ tableEntry p (frameTypeOf t) nib = .named n := by
  unfold nameOfCode
  rw [category_append, nibble_append]
  split <;> simp_all

/-- Everything `SubDecode` can give. -/
theorem subDecode_cases (p : Params) (t : BitVec 2) (nib : BitVec 4) :
    (∃ n, tableEntry p (frameTypeOf t) nib = .named n ∧ subDecode p t nib = t ++ nib) ∨
      (tableEntry p (frameTypeOf t) nib = .reserved ∧ subDecode p t nib = subReserved) ∨
      (tableEntry p (frameTypeOf t) nib = .unhandled ∧ subDecode p t nib = subUnhandled) := by
  unfold subDecode
  split <;> simp_all

/-- Everything `SubEncode` can give. -/
theorem subEncode_cases (p : Params) (t : BitVec 2) (sub : BitVec 6) :
    (frameTypeOf t = .unknown ∧ subEncode p t sub = .error ⟨.unhandledProtocol, 0⟩) ∨
      (frameTypeOf t ≠ .unknown ∧ sub = subReserved ∧ subEncode p t sub = .error ⟨.subtypeReserved, 0⟩) ∨
      (frameTypeOf t ≠ .unknown ∧ sub = subUnhandled ∧ subEncode p t sub = .error ⟨.subtypeUnhandled, 0⟩) ∨
      (frameTypeOf t ≠ .unknown ∧ sub ≠ subReserved ∧ sub ≠ subUnhandled ∧
        (¬ (sub.extractLsb' 4 2 = t ∧ (nameOfCode p sub).isSome = true)) ∧
        subEncode p t sub = .error ⟨.subtypeMismatch, (t ++ sub).setWidth 32⟩) ∨
      (∃ nib n, sub = t ++ nib ∧ tableEntry p (frameTypeOf t) nib = .named n ∧ subEncode p t sub = .ok nib) := by
  unfold subEncode
  split
  · exact .inl ⟨‹_›, rfl⟩
  · split
    · exact .inr (.inl ⟨‹_›, ‹_›, rfl⟩)
    · split
      · exact .inr (.inr (.inl ⟨‹_›, ‹_›, rfl⟩))
      · split
        · next hne _ _ h =>
          obtain ⟨ht, hs⟩ := h
          obtain ⟨n, hn⟩ := Option.isSome_iff_exists.1 hs
          refine .inr (.inr (.inr (.inr ⟨sub.extractLsb' 0 4, n, ?_, ?_, rfl⟩)))
          · rw [← ht]; exact (append_halves sub).symm
          · rw [← nameOfCode_append, ← ht]
            exact (congrArg (nameOfCode p) (append_halves sub)).trans hn
        · exact .inr (.inr (.inr (.inl ⟨‹_›, ‹_›, ‹_›, ‹_›, rfl⟩)))

/-! ## The element loop -/

/-- An element's length on the wire (42_tlv_station_info.md R160). -/
@[simp] theorem elementBytes_length (e : Element) : (elementBytes e).length = e.pay.length + 2 := by
  simp [elementBytes]

/-- One turn of the loop. -/
theorem parseElements_succ (tailMin : Nat) (text : List Byte → List Byte) (turns : Nat) (rest : List Byte)
    (si : StationInfo) :
    parseElements tailMin text (turns + 1) rest si =
      if rest.length < tailMin then .ok (si, rest)
      else match rest with
        | tag :: n :: body =>
          if body.length < n.toNat then .error (n.toNat - body.length)
          else parseElements tailMin text turns (body.drop n.toNat) (addElement text si tag (body.take n.toNat))
        | [tag] => .ok (si, [tag])
        | [] => .ok (si, []) := rfl

/-- One turn of the loop on a slice that begins with a whole element. -/
theorem parseElements_element (tailMin : Nat) (text : List Byte → List Byte) (turns : Nat) (e : Element)
    (rest : List Byte) (si : StationInfo) (hlen : e.pay.length ≤ 255) (htail : tailMin ≤ 2 + e.pay.length + rest.length) :
    parseElements tailMin text (turns + 1) (elementBytes e ++ rest) si =
      parseElements tailMin text turns rest (addElement text si e.tag e.pay) := by
  have hn : (BitVec.ofNat 8 e.pay.length).toNat = e.pay.length := by simp; omega
  rw [parseElements_succ, if_neg (by simp; omega)]
  simp only [elementBytes, List.cons_append]
  rw [if_neg (by rw [hn]; simp), hn]
  simp

/-- The loop ends on a short tail. -/
theorem parseElements_tail (tailMin : Nat) (text : List Byte → List Byte) (turns : Nat) (rest : List Byte)
    (si : StationInfo) (h : rest.length < tailMin) : parseElements tailMin text turns rest si = .ok (si, rest) := by
  cases turns with
  | zero => rfl
  | succ n => rw [parseElements_succ, if_pos h]

/-- The loop reports an element whose payload is cut short. -/
theorem parseElements_truncated (tailMin : Nat) (text : List Byte → List Byte) (turns : Nat) (tag n : Byte)
    (body : List Byte) (si : StationInfo) (hn : body.length < n.toNat) (ht : tailMin ≤ 2 + body.length) :
    parseElements tailMin text (turns + 1) (tag :: n :: body) si = .error (n.toNat - body.length) := by
  rw [parseElements_succ, if_neg (by simp; omega)]
  simp [hn]

/-! ## Sequence Control -/

theorem scUnpack_bytes (b0 b1 : Byte) : scUnpack [b0, b1] = ⟨b0.extractLsb' 0 4, b1 ++ b0.extractLsb' 4 4⟩ := rfl

end Sys2Proof.Machine
end

