-- ==== Sys2Proof/Laws/PerInstr.lean ====
section
/-! SUPPORT. The families of statements made per operation. -/

namespace Sys2Proof.Laws

/-- The encoder puts the opcode of R84 in bits 7:0 and the argument in bits 15:8 (30_encoding.md R80, R87). -/
def EncodingRow.Statement (i : Instr) : Prop :=
  opcodeField (encode i) = i.opcode ∧ argField (encode i) = i.arg

/-- The halves of a command word. -/
theorem encode_halves (a o : BitVec 8) :
    opcodeField ((a ++ o : BitVec (8 + 8)) : BitVec 16) = o ∧ argField ((a ++ o : BitVec (8 + 8)) : BitVec 16) = a := by
  constructor
  · exact BitVec.extractLsb'_append_eq_right
  · exact BitVec.extractLsb'_append_eq_left

theorem EncodingRow.nop : EncodingRow.Statement .nop := encode_halves _ _
theorem EncodingRow.clrs : EncodingRow.Statement .clrs := encode_halves _ _
theorem EncodingRow.rst : EncodingRow.Statement .rst := encode_halves _ _
theorem EncodingRow.skip (n : BitVec 8) : EncodingRow.Statement (.skip n) := encode_halves _ _
theorem EncodingRow.fcdec : EncodingRow.Statement .fcdec := encode_halves _ _
theorem EncodingRow.fcenc : EncodingRow.Statement .fcenc := encode_halves _ _
theorem EncodingRow.stdec : EncodingRow.Statement .stdec := encode_halves _ _
theorem EncodingRow.stenc : EncodingRow.Statement .stenc := encode_halves _ _
theorem EncodingRow.scdec : EncodingRow.Statement .scdec := encode_halves _ _
theorem EncodingRow.scenc : EncodingRow.Statement .scenc := encode_halves _ _
theorem EncodingRow.scnew : EncodingRow.Statement .scnew := encode_halves _ _
theorem EncodingRow.scset : EncodingRow.Statement .scset := encode_halves _ _
theorem EncodingRow.macdec (k : BitVec 8) : EncodingRow.Statement (.macdec k) := encode_halves _ _
theorem EncodingRow.macenc (k : BitVec 8) : EncodingRow.Statement (.macenc k) := encode_halves _ _
theorem EncodingRow.capdec : EncodingRow.Statement .capdec := encode_halves _ _
theorem EncodingRow.capenc : EncodingRow.Statement .capenc := encode_halves _ _
theorem EncodingRow.tlvdec : EncodingRow.Statement .tlvdec := encode_halves _ _
theorem EncodingRow.tlvenc : EncodingRow.Statement .tlvenc := encode_halves _ _
theorem EncodingRow.ratek : EncodingRow.Statement .ratek := encode_halves _ _
theorem EncodingRow.krate : EncodingRow.Statement .krate := encode_halves _ _
theorem EncodingRow.mhdec : EncodingRow.Statement .mhdec := encode_halves _ _
theorem EncodingRow.mhenc : EncodingRow.Statement .mhenc := encode_halves _ _
theorem EncodingRow.dhctx : EncodingRow.Statement .dhctx := encode_halves _ _
theorem EncodingRow.dhdec : EncodingRow.Statement .dhdec := encode_halves _ _
theorem EncodingRow.dhenc : EncodingRow.Statement .dhenc := encode_halves _ _
theorem EncodingRow.disp : EncodingRow.Statement .disp := encode_halves _ _
theorem EncodingRow.gsel : EncodingRow.Statement .gsel := encode_halves _ _
theorem EncodingRow.parse : EncodingRow.Statement .parse := encode_halves _ _

end Sys2Proof.Laws
end

