-- ==== Sys2Proof/Tests/Slice0.lean ====
section
/-! SUPPORT. The model's own tests. Expected values are those of spec/95_test_vectors.md, or worked out by hand from the
rule that the comment names. After them, for each obligation with hypotheses, a witness that they can be met. -/

namespace Sys2Proof.Tests

open Sys2Proof.Machine Sys2Proof.Spec

/-! ## Helpers -/

/-- `s` with `bs` as the whole input: `IBUF[0..n)` and `ILEN`. -/
def withInput (bs : List Byte) (s : State) : State :=
  { s with ibuf := Memory.writeAll s.ibuf 0 bs, ilen := BitVec.ofNat 16 bs.length }

/-- `s` with `OCUR` and `OCAP`. -/
def withOutput (ocur ocap : BitVec 16) (s : State) : State := { s with ocur := ocur, ocap := ocap }

/-- Reset with an input. -/
def given (bs : List Byte) : State := withInput bs State.reset

/-- Reset with `n` bytes of input, all 0. -/
def zeros (n : Nat) : State := given (List.replicate n 0)

/-- Reset with `n` bytes of room. -/
def room (n : BitVec 16) : State := withOutput 0 n State.reset

/-- Reset with host actions to come. -/
def hosted (acts : List HostAction) : State := State.reset.withScript acts

/-- Reset with a Frame Control. -/
def framed (type : BitVec 2) (sub : BitVec 6) (flags : BitVec 8) : State :=
  { State.reset with fc := ⟨0, type, sub, flags⟩ }

/-- What `f` gives of the state after an operation. -/
def result {α : Type} (i : Instr) (s : State) (f : State → α) : Option α := (nextOf (exec i s)).map f

/-- The written bytes of `OBUF` from an index on. -/
def written (a n : Nat) (t : State) : List (Option Byte) := (List.range n).map fun i => Memory.read t.obuf (a + i)

/-- CODE, STICKY and `ERRINFO`. -/
def report (t : State) : BitVec 8 × BitVec 1 × BitVec 32 := (code t, sticky t, t.errinfo)

/-- Six equal octets. -/
def six (b : Byte) : MacAddr := ⟨b, b, b, b, b, b⟩

/-! ## Well-formedness: an ill-formed term for each check -/

theorem test_macdec_0_ill_formed : (Instr.macdec 0).wellFormed = false := by decide
theorem test_macdec_5_ill_formed : (Instr.macdec 5).wellFormed = false := by decide
theorem test_macenc_0_ill_formed : (Instr.macenc 0).wellFormed = false := by decide
theorem test_macenc_5_ill_formed : (Instr.macenc 5).wellFormed = false := by decide
theorem test_macdec_1_4_well_formed : (Instr.macdec 1).wellFormed = true ∧ (Instr.macdec 4).wellFormed = true := by decide

/-! ## Decoding: each operation's word, argument byte and opcode byte as R84 lists them -/

theorem test_decode_control :
    decode 0x0000 = .ok .nop ∧ decode 0x0001 = .ok .clrs ∧ decode 0x0002 = .ok .rst ∧ decode 0x0A03 = .ok (.skip 10) := by
  decide

theorem test_decode_frame_control :
    decode 0x0010 = .ok .fcdec ∧ decode 0x0011 = .ok .fcenc ∧ decode 0x0012 = .ok .stdec ∧ decode 0x0013 = .ok .stenc := by
  decide

theorem test_decode_primitive :
    decode 0x0020 = .ok .scdec ∧ decode 0x0021 = .ok .scenc ∧ decode 0x0022 = .ok .scnew ∧ decode 0x0023 = .ok .scset ∧
    decode 0x0224 = .ok (.macdec 2) ∧ decode 0x0425 = .ok (.macenc 4) ∧ decode 0x0026 = .ok .capdec ∧
    decode 0x0027 = .ok .capenc := by
  decide

theorem test_decode_station_info :
    decode 0x0030 = .ok .tlvdec ∧ decode 0x0031 = .ok .tlvenc ∧ decode 0x0032 = .ok .ratek ∧ decode 0x0033 = .ok .krate := by
  decide

theorem test_decode_headers :
    decode 0x0040 = .ok .mhdec ∧ decode 0x0041 = .ok .mhenc ∧ decode 0x0042 = .ok .dhctx ∧ decode 0x0043 = .ok .dhdec ∧
    decode 0x0044 = .ok .dhenc := by
  decide

theorem test_decode_dispatch :
    decode 0x0050 = .ok .disp ∧ decode 0x0051 = .ok .gsel ∧ decode 0x0052 = .ok .parse := by
  decide

/-- The illegal words of program P3, by the check that refuses them (R82). -/
theorem test_decode_refuses :
    decode 0x00FF = .error .unassignedOpcode ∧ decode 0x0110 = .error .argumentNotZero ∧
    decode 0x0524 = .error .noSuchAddressRegister := by
  decide

theorem test_decodeTableWord : decodeTableWord 16 0x0224 = some (.macdec 2) ∧ decodeTableWord 16 0x00FF = none := by
  decide

/-- The word put in front of the script is what the next step runs: SCNEW, from reset, ends OK. -/
theorem test_step_runs_fetched_word :
    (nextOf (step (State.reset.withFetchWord 16 0x0022))).map (fun t => (t.env.script, report t)) =
      some ([], 0, 0, 0) := by
  decide

/-! ## Control operations -/

/-- P3 line 3. -/
theorem test_nop_keeps_sticky : result .nop { State.reset with status := 0x10E, errinfo := 7 } report = some (0, 1, 0) := by
  decide

/-- P3 line 13. -/
theorem test_clrs : result .clrs { State.reset with status := 0x10E, errinfo := 7 } report = some (0, 0, 0) := by decide

theorem test_rst :
    result .rst { given [1, 2] with res := 5, fc := ⟨1, 2, 0x28, 3⟩, status := 0x101 }
      (fun t => (t.res, t.fc, t.ilen, t.status, Memory.read t.ibuf 1)) = some (0, ⟨0, 0, 0, 0⟩, 0, 0, some 2) := by
  decide

/-- Section 2.2, steps 5 and 7. -/
theorem test_skip :
    result (.skip 1) { zeros 9 with icur := 8 } (fun t => (t.icur, report t)) = some (9, 0, 0, 0) ∧
    result (.skip 2) { zeros 9 with icur := 8 } (fun t => (t.icur, report t)) = some (8, 1, 1, 1) := by
  decide

/-! ## Frame Control -/

/-- Section 2.1: 88 03 and 0C FF. -/
theorem test_fcdec :
    result .fcdec (given [0x88, 0x03]) (fun t => (t.fc, t.icur)) = some (⟨0, 2, 0x28, 0x03⟩, 2) ∧
    result .fcdec (given [0x0C, 0xFF]) (fun t => t.fc) = some ⟨0, 3, 0x3F, 0xFF⟩ := by
  decide

/-- Section 2.1: beyond `ILEN` the number of bytes available is 0. -/
theorem test_fcdec_incomplete : result .fcdec { zeros 9 with icur := 100 } report = some (1, 1, 2) := by decide

/-- Section 2.1: Beacon at `OCUR` 2. -/
theorem test_fcenc :
    result .fcenc (withOutput 2 4 (framed 0 8 0)) (fun t => (written 2 2 t, t.ocur)) = some ([some 0x80, some 0], 4) := by
  decide

/-- Section 2.1: the value is checked before the capacity. -/
theorem test_fcenc_errors :
    result .fcenc (framed 0 0x3E 0) report = some (4, 1, 0) ∧
    result .fcenc (withOutput 3 4 (framed 0 8 0)) (fun t => (report t, t.ocur)) = some ((3, 1, 5), 3) := by
  decide

/-- Section 2.1: bits 15:4 of `OPA` are ignored. -/
theorem test_stdec : result .stdec { framed 2 0 0 with opa := 0xFFF8 } (fun t => t.fc.sub) = some 0x28 := by decide

theorem test_stenc : result .stenc (framed 1 0x1B 0) (fun t => t.res) = some 11 := by decide
theorem test_stenc_mismatch : result .stenc (framed 1 8 0) report = some (6, 1, 0x48) := by decide

/-! ## Primitive codecs -/

theorem test_scdec : result .scdec (given [0x34, 0x12]) (fun t => t.sc) = some ⟨4, 0x123⟩ := by decide

theorem test_scenc :
    result .scenc { room 2 with sc := ⟨1, 0x234⟩ } (written 0 2) = some [some 0x41, some 0x23] := by
  decide

theorem test_scnew : result .scnew { State.reset with opa := 0xFFF, sc := ⟨3, 1⟩ } (fun t => t.sc) = some ⟨0, 0xFFF⟩ := by
  decide

theorem test_scnew_range : result .scnew { State.reset with opa := 0x1000 } report = some (11, 1, 0x1000) := by decide

theorem test_scset :
    result .scset { State.reset with opa := 0x234, opb := 1 } (fun t => t.sc) = some ⟨1, 0x234⟩ := by
  decide

theorem test_scset_range :
    result .scset { State.reset with opb := 0x10 } report = some (11, 1, 0x10010) ∧
    result .scset { State.reset with opa := 0x1000, opb := 0x10 } report = some (11, 1, 0x1000) := by
  decide

/-- Section 2.2, steps 1 and 2. -/
theorem test_macdec :
    result (.macdec 2) (given [0, 0x11, 0x22, 0x33, 0x44, 0x55, 0x66]) (fun t => (t.hd.a2, t.hd.a1, t.icur)) =
      some (⟨0, 0x11, 0x22, 0x33, 0x44, 0x55⟩, six 0, 6) ∧
    result (.macdec 4) { zeros 9 with icur := 6 } report = some (1, 1, 3) := by
  decide

theorem test_macenc :
    result (.macenc 3) { room 6 with hd := { State.reset.hd with a3 := ⟨1, 2, 3, 4, 5, 6⟩ } } (written 0 6) =
      some [some 1, some 2, some 3, some 4, some 5, some 6] ∧
    result (.macenc 1) (room 5) report = some (3, 1, 6) := by
  decide

theorem test_capdec : result .capdec (given [0x66, 0x77]) (fun t => t.cap) = some 0x7766 := by decide

theorem test_capenc :
    result .capenc { room 2 with cap := 0x421 } (written 0 2) = some [some 0x21, some 0x04] := by
  decide

/-! ## Station Info and rates -/

/-- Section 2.3, first row, shortened. -/
theorem test_tlvdec :
    result .tlvdec (given [0x00, 0x02, 0x54, 0x65, 0x01, 0x01, 0x82, 0x03, 0x01, 0x06, 0xDD, 0x02, 0x00, 0x50, 0xAA, 0xBB])
      (fun t => (t.si, t.res, t.icur)) =
      some (⟨1, [0x54, 0x65], [0x82], [⟨0x03, [0x06]⟩, ⟨0xDD, [0x00, 0x50]⟩]⟩, 14, 14) := by
  decide

/-- Section 2.3: nothing of the first element is kept; NUL and ill-formed text. -/
theorem test_tlvdec_incomplete_and_text :
    result .tlvdec (given [0xDD, 0x03, 1, 2, 3, 0x05, 0xFF, 0, 0, 0]) (fun t => (report t, t.si, t.icur)) =
      some ((1, 1, 252), ⟨0, [], [], []⟩, 0) ∧
    result .tlvdec (given [0x00, 0x05, 0x41, 0x00, 0xFF, 0xC3, 0x28]) (fun t => t.si.ssid) =
      some [0x41, 0xE2, 0x90, 0x80, 0xEF, 0xBF, 0xBD, 0xEF, 0xBF, 0xBD, 0x28] := by
  decide

theorem test_tlvenc :
    result .tlvenc { room 4096 with si := ⟨1, [0x54], [0x82], [⟨0xDD, [7, 8]⟩, ⟨3, []⟩]⟩ }
      (fun t => (written 0 12 t, t.res, t.ocur)) =
      some ([0x00, 0x01, 0x54, 0x01, 0x01, 0x82, 0xDD, 0x02, 7, 8, 0x03, 0x00].map some, 12, 12) := by
  decide

set_option maxRecDepth 10000 in
/-- Section 2.3: the index of the first element that is too long. -/
theorem test_tlvenc_too_long :
    result .tlvenc { room 4096 with si := ⟨0, [], List.replicate 256 0x82, []⟩ } report = some (7, 1, 0x100) := by
  decide

/-- Section 1.2. -/
theorem test_ratek :
    result .ratek { State.reset with opa := 0x82 } (fun t => t.res) = some 1000 ∧
    result .ratek { State.reset with opa := 0x99 } report = some (12, 1, 0x99) := by
  decide

theorem test_krate :
    result .krate { State.reset with opa := 5500 } (fun t => t.res) = some 0x8B ∧
    result .krate { State.reset with opa := 5501 } report = some (13, 1, 5501) := by
  decide

/-! ## Headers -/

/-- Program P1, line 2: the bytes after the Frame Control. -/
theorem test_mhdec :
    result .mhdec { given ([0x80, 0, 0x2C, 0x01] ++ List.replicate 6 0x11 ++ List.replicate 6 0x22 ++
        List.replicate 6 0x33 ++ [0x41, 0x23]) with icur := 2 } (fun t => (t.hd.dur, t.hd.a1, t.hd.a3, t.sc, t.icur)) =
      some (0x012C, six 0x11, six 0x33, ⟨1, 0x234⟩, 24) := by
  decide

/-- Program P6, line 4. -/
theorem test_mhenc :
    result .mhenc { withOutput 0 24 (framed 0 0x0B 0) with
        hd := { State.reset.hd with dur := 0x13A, a1 := ⟨1, 2, 3, 4, 5, 6⟩, a2 := six 0x0A, a3 := six 0x0B }
        sc := ⟨0, 0xABC⟩ } (written 0 24) =
      some ([0xB0, 0, 0x3A, 0x01, 1, 2, 3, 4, 5, 6, 0x0A, 0x0A, 0x0A, 0x0A, 0x0A, 0x0A,
        0x0B, 0x0B, 0x0B, 0x0B, 0x0B, 0x0B, 0xC0, 0xAB].map some) := by
  decide

/-- Program P4, line 2, and its variant (c). -/
theorem test_dhctx :
    result .dhctx (framed 2 0x28 3) (fun t => (t.hd.a4p, t.hd.qosp)) = some (1, 1) ∧
    result .dhctx (framed 2 0x20 1) (fun t => (t.hd.a4p, t.hd.qosp)) = some (0, 0) := by
  decide

/-- Program P4, line 3, and its variant (a). -/
theorem test_dhdec :
    result .dhdec { given (List.replicate 20 0 ++ [0x10, 0] ++ List.replicate 6 0x44 ++ [5, 0]) with
        hd := { State.reset.hd with a4p := 1, qosp := 1 } } (fun t => (t.sc, t.hd.a4, t.hd.qos, t.icur)) =
      some (⟨0, 1⟩, six 0x44, 5, 30) ∧
    result .dhdec { zeros 28 with hd := { State.reset.hd with a4p := 1, qosp := 1 } } report = some (1, 1, 2) := by
  decide

/-- R208: Address4 before QoS control. -/
theorem test_dhenc :
    result .dhenc { withOutput 0 64 (framed 2 0x28 3) with
        hd := { State.reset.hd with a4p := 1, qosp := 1, a4 := six 0x44, qos := 0x0105 } }
      (fun t => (written 24 8 t, t.ocur)) =
      some ([0x44, 0x44, 0x44, 0x44, 0x44, 0x44, 0x05, 0x01].map some, 32) := by
  decide

/-! ## Dispatch -/

/-- Program P5, line 3. -/
theorem test_disp :
    result .disp (framed 0 8 0) (fun t => t.hsel) = some 1 ∧
    result .disp { zeros 16 with icur := 2, fc := ⟨0, 1, 0x1B, 0⟩ } report = some (9, 1, 0x0E) := by
  decide

/-- Program P2 line 1, program P3 line 12. -/
theorem test_gsel :
    result .gsel { State.reset with fvar := 2, ocur := 9 } (fun t => (t.hsel, t.ocur)) = some (2, 0) ∧
    result .gsel { State.reset with fvar := 7, ocur := 4 } (fun t => (report t, t.ocur)) = some ((8, 1, 7), 4) := by
  decide

/-- Program P1 line 1, program P5 line 2. -/
theorem test_parse :
    result .parse { given [0x80, 0, 0] with icur := 3 } (fun t => (t.fc, t.icur, t.hsel)) = some (⟨0, 0, 8, 0⟩, 2, 1) ∧
    result .parse (given [0xB4, 0, 1, 1]) (fun t => (report t, t.fc, t.icur, t.hsel)) =
      some ((9, 1, 2), ⟨0, 1, 0x1B, 0⟩, 2, 0) := by
  decide

/-! ## Witnesses: each obligation with hypotheses has a case in which they hold, each clause at a boundary -/

/-- An operation answers a next state of which a test holds. -/
def gives (i : Instr) (s : State) (test : State → Bool) : Prop := ∃ t, exec i s = .next t ∧ test t = true

/-- Reset with six bytes of everything: the Beacon Frame Control in the input and in the registers, room for it. -/
def busy : State :=
  { withOutput 1 60 (withInput ([0x80, 0] ++ List.replicate 28 1) State.reset) with
    fc := ⟨0, 0, 0x08, 0⟩, fvar := 1, opa := 0x82, hd := { State.reset.hd with a4p := 1, qosp := 1 }
    si := ⟨1, [0x54], [], []⟩ }

/-- The default parameters with other subtype tables. -/
def withTables (m c d : List TableEntry) : Params := { defaultParams with tabM := m, tabC := c, tabD := d }

/-- Admissible tables of the implementation's own: no name at Management nibble 0, Control nibble 2 named as a later
amendment has it (R107), Control nibble 4 `Unhandled`. -/
def otherParams : Params :=
  withTables (.unhandled :: stdEntry .associationRequest :: defaultTabM.drop 2)
    ([.reserved, .reserved, .named (.other 0), .reserved, .unhandled] ++ defaultTabC.drop 5) defaultTabD

/-- R105 on these tables, and its constraint 5 on tables that break it: `Reserved` at an assigned nibble of each category,
and a name at a nibble the standard leaves unassigned. -/
theorem test_tables_agree_with_standard :
    otherParams.TablesOk ∧
    ¬ (withTables (defaultTabM.set 1 .reserved) defaultTabC defaultTabD).TablesOk ∧
    ¬ (withTables defaultTabM (defaultTabC.set 11 .reserved) defaultTabD).TablesOk ∧
    ¬ (withTables defaultTabM defaultTabC (defaultTabD.set 8 .reserved)).TablesOk ∧
    ¬ (withTables defaultTabM defaultTabC (defaultTabD.set 13 (.named (.other 0)))).TablesOk := by
  refine ⟨?_, ?_, ?_, ?_, ?_⟩ <;> decide +kernel

/-- The numbers of the register tables of 10_state.md (R22, R26, R27, R30, R31, R34, R35), `CMD` among them. -/
theorem test_port_numbers :
    (Port.reg .id).number = 0x00 ∧ (HostAction.command 0x0010).port.map Port.number = some 0x01 ∧
    HostAction.readCmd.port.map Port.number = some 0x01 ∧ (Port.reg .status).number = 0x02 ∧
    (Port.reg .res).number = 0x0C ∧ (Port.reg .fcVer).number = 0x10 ∧ (Port.reg .cap).number = 0x1E ∧
    (Port.reg .siData).number = 0x23 := by
  decide

theorem witness_DecodeOfEncodeIsIdentity :
    Instr.parse.wellFormed = true ∧ (Instr.skip 255).wellFormed = true ∧ (Instr.macdec 1).wellFormed = true ∧
    (Instr.macenc 4).wellFormed = true := by
  decide

theorem witness_EncodeOfDecodeIsIdentity : decode 0x0424 = .ok (.macdec 4) ∧ decode 0xFF03 = .ok (.skip 255) := by decide

theorem witness_StepRunsTheDecodedOperation :
    (hosted [.command 0x0010, .readCmd]).env.script = .command 0x0010 :: [.readCmd] ∧ decode 0x0010 = .ok .fcdec := by
  decide

theorem witness_IllegalWordsRaiseIllegalCommand :
    illegalWord 0x0524 ∧ illegalWord 0x0024 ∧ illegalWord 0x0110 ∧ illegalWord 0x00FF ∧ illegalWord 0x0004 ∧
    ¬ illegalWord 0x0424 ∧ ¬ illegalWord 0x0124 ∧ ¬ illegalWord 0xFF03 ∧ ¬ illegalWord 0x0052 ∧ ¬ illegalWord 0 := by
  refine ⟨?_, ?_, ?_, ?_, ?_, ?_, ?_, ?_, ?_, ?_⟩ <;> (unfold illegalWord; decide)

theorem witness_IdleBlockHoldsItsState : State.reset.env.script = [] := rfl

/-- The limits of `ILEN` and `OCAP` lie at 4096, the legal codes below 0x30 and at the sentinels. -/
theorem witness_HostWritesStoreSubstitutes :
    (hosted [.write .ilen (.num 4097)]).env.script = .write .ilen (.num 4097) :: [] ∧ defaultParams.ibufCap < 4097 ∧
    (hosted [.write .ilen (.num 4096)]).env.script = .write .ilen (.num 4096) :: [] ∧ ¬ defaultParams.ibufCap < 4096 ∧
    (hosted [.write .ocap (.num 65535)]).env.script = .write .ocap (.num 65535) :: [] ∧
    (hosted [.write .fcSub (.num 63)]).env.script = .write .fcSub (.num 63) :: [] ∧
    legalSub defaultParams 0x2F = true ∧ legalSub defaultParams 0x30 = false ∧ legalSub defaultParams 0x3F = true ∧
    (hosted [.write .fcVer (.num 4)]).env.script = .write .fcVer (.num 4) :: [] ∧
    (hosted [.write .fcType (.num 5)]).env.script = .write .fcType (.num 5) :: [] ∧
    (hosted [.write .scFrag (.num 16)]).env.script = .write .scFrag (.num 16) :: [] ∧
    (hosted [.write .scSeq (.num 4096)]).env.script = .write .scSeq (.num 4096) :: [] ∧
    (hosted [.read .id]).env.script = .read .id :: [] := by
  decide

theorem witness_HardwareResetRestoresRegisters : (hosted [.hardReset]).env.script = .hardReset :: [] := rfl

/-- Both reset codes of `FC.SUB` occur. -/
theorem witness_ResetStateHoldsResetValues : resetSubIs defaultParams 0 ∧ resetSubIs otherParams 0x3E := by
  refine ⟨.inl ⟨⟨_, rfl⟩, rfl⟩, .inr ⟨fun n h => ?_, rfl⟩⟩
  cases h

/-- An error that leaves all but the report, and the one that leaves a decode. -/
theorem witness_ErrorsChangeOnlyTheReport :
    gives .scnew { busy with opa := 4096 } (fun t => code t == 11) ∧
    gives .parse (given [0xB4, 0]) (fun t => code t == 9) := by
  exact ⟨⟨_, rfl, by decide⟩, _, rfl, by decide⟩

theorem witness_EveryOperationReports :
    gives .scnew { busy with opa := 4096 } (fun t => code t != 0) ∧ gives .clrs busy (fun t => code t == 0) ∧
    gives .rst busy (fun t => code t == 0) ∧ gives .nop busy (fun t => code t == 0) := by
  exact ⟨⟨_, rfl, by decide⟩, ⟨_, rfl, by decide⟩, ⟨_, rfl, by decide⟩, _, rfl, by decide⟩

theorem witness_OperationsRaiseOnlyTheirErrors :
    gives .fcenc (room 1) (fun t => code t == 3) ∧ gives (.macdec 5) busy (fun t => code t == 14) := by
  exact ⟨⟨_, rfl, by decide⟩, _, rfl, by decide⟩

theorem defaultParams_ratesOk : defaultParams.RatesOk := by
  unfold Params.RatesOk
  simp [defaultParams, defaultRateTable]

theorem defaultParams_registriesOk : defaultParams.RegistriesOk := by
  unfold Params.RegistriesOk
  simp [defaultParams, defaultHandlers, defaultGenerators, namesIn, defaultTabM, stdEntry]

theorem defaultParams_admissible : defaultParams.Admissible :=
  ⟨by decide, by decide, by decide +kernel, by decide, defaultParams_ratesOk, defaultParams_registriesOk⟩

/-- A state with both buffers in use that meets the invariant, and a step from it. -/
theorem witness_StepKeepsTheInvariant :
    ∃ t, (busy.withScript [.command 0x0041]).Inv ∧ step (busy.withScript [.command 0x0041]) = .next t ∧
      (t.obuf.isEmpty = false) := by
  refine ⟨_, ⟨defaultParams_admissible, ⟨by decide, by decide, by decide, by decide⟩, by decide, by decide, by decide,
    by decide⟩, rfl, by decide⟩

/-- TLVDEC writes most; an operation in no list of the statement writes none of its fields; DHDEC with both bits set and
with both clear. -/
theorem witness_OnlyTheListedOperationsWrite :
    gives .tlvdec (given [0, 3, 1, 2, 3]) (fun t => t.icur == 5) ∧ gives .nop busy (fun t => code t == 0) ∧
    gives .dhdec busy (fun t => t.hd.qos == 0x0101) ∧
    gives .dhdec { busy with hd := State.reset.hd } (fun t => t.hd.qos == 0) := by
  exact ⟨⟨_, rfl, by decide⟩, ⟨_, rfl, by decide⟩, ⟨_, rfl, by decide⟩, _, rfl, by decide⟩

/-- The bytes just outside of what FCENC stores at 1. -/
theorem witness_StoresStayInTheirBytes :
    gives .fcenc busy (fun t => t.ocur == 3) ∧ (0 < busy.ocur.toNat) ∧
    (busy.ocur.toNat + storedBytes .fcenc busy ≤ 3) := by
  exact ⟨⟨_, rfl, by decide⟩, by decide, by decide⟩

theorem witness_InputBufferIsNeverWritten : gives .fcdec busy (fun t => t.icur == 2) := ⟨_, rfl, by decide⟩

theorem witness_OutputBufferIsNeverRead : gives .fcenc busy (fun t => t.ocur == 3) := ⟨_, rfl, by decide⟩

theorem witness_CursorsStayWithinTheirLimits :
    gives (.skip 30) busy (fun t => t.icur == t.ilen) ∧ gives .dhenc { busy with ocap := 33 } (fun t => t.ocur == t.ocap) ∧
    gives .parse { busy with icur := 30 } (fun t => t.icur == 2) ∧ gives .gsel busy (fun t => t.ocur == 0) := by
  exact ⟨⟨_, rfl, by decide⟩, ⟨_, rfl, by decide⟩, ⟨_, rfl, by decide⟩, _, rfl, by decide⟩

theorem witness_SkipMovesTheInputCursor :
    (255 : BitVec 8).toNat ≤ (given (List.replicate 255 0)).avail ∧ (given [1]).avail < (2 : BitVec 8).toNat := by
  decide +kernel

/-- The operations of 2 and 6 bytes of input: exactly enough, and one byte less. -/
theorem witness_FcdecDecodesFrameControl : 2 ≤ (zeros 2).avail ∧ (zeros 1).avail < 2 := by decide
theorem witness_ScdecUnpacks : 2 ≤ (zeros 2).avail ∧ (zeros 1).avail < 2 := by decide
theorem witness_CapdecReadsLittleEndian : 2 ≤ (zeros 2).avail ∧ (zeros 1).avail < 2 := by decide
theorem witness_MacdecCopiesSixOctets :
    6 ≤ (zeros 6).avail ∧ (zeros 5).avail < 6 ∧ (0 : BitVec 8) ∉ ([1, 2, 3, 4] : List (BitVec 8)) ∧
    (5 : BitVec 8) ∉ ([1, 2, 3, 4] : List (BitVec 8)) := by
  decide
theorem witness_MhdecReadsTheHeader : 22 ≤ (zeros 22).avail ∧ (zeros 21).avail < 22 := by decide

/-- The four lengths of a Data header. -/
theorem witness_DhdecReadsTheHeader :
    (∀ a q : BitVec 1, ∀ n, n = 22 + 6 * a.toNat + 2 * q.toNat → n ≤ 30) ∧ 30 ≤ (zeros 30).avail ∧ (zeros 29).avail < 30 ∧
    22 ≤ (zeros 22).avail ∧ (zeros 21).avail < 22 := by
  refine ⟨fun a q n h => ?_, by decide⟩
  omega

/-- The encode operations: exactly room enough, and one byte less; a subtype that encodes, and one that does not. -/
theorem witness_FcencEncodesFrameControl :
    subEncode defaultParams 0 0x08 = .ok 8 ∧ (fcOut 8 ⟨0, 0, 8, 0⟩ ++ []).length ≤ (room 2).room ∧
    (room 1).room < (fcOut 8 ⟨0, 0, 8, 0⟩ ++ []).length ∧
    subEncode defaultParams 0 0x3E = .error ⟨.subtypeReserved, 0⟩ := by
  exact ⟨rfl, by decide, by decide, rfl⟩
theorem witness_ScencPacks :
    (scOut State.reset.sc).length ≤ (room 2).room ∧ (room 1).room < (scOut State.reset.sc).length := by decide
theorem witness_CapencWritesLittleEndian :
    (leOut State.reset.cap).length ≤ (room 2).room ∧ (room 1).room < (leOut State.reset.cap).length := by decide
theorem witness_MacencCopiesSixOctets :
    (macOut State.reset.hd.a1).length ≤ (room 6).room ∧ (room 5).room < (macOut State.reset.hd.a1).length ∧
    (5 : BitVec 8) ∉ ([1, 2, 3, 4] : List (BitVec 8)) := by
  decide
theorem witness_MhencBuildsTheHeader :
    subEncode (room 24).params (room 24).fc.type (room 24).fc.sub = .ok 0 ∧
    (fcOut 0 (room 24).fc ++ (leOut 0 ++ macOut (six 0) ++ macOut (six 0) ++ macOut (six 0) ++ scOut ⟨0, 0⟩)).length ≤
      (room 24).room ∧ (room 23).room < 24 ∧ subEncode defaultParams 3 0 = .error ⟨.unhandledProtocol, 0⟩ := by
  exact ⟨rfl, by decide, by decide, rfl⟩
theorem witness_DhencBuildsTheHeader :
    subEncode busy.params busy.fc.type busy.fc.sub = .ok 8 ∧ storedBytes .dhenc busy ≤ busy.room ∧
    ({ busy with ocap := 32 } : State).room < storedBytes .dhenc busy ∧
    subEncode defaultParams 1 0x08 = .error ⟨.subtypeMismatch, 0x48⟩ := by
  exact ⟨rfl, by decide, by decide, rfl⟩

theorem witness_StencMapsSubtypeToNibble :
    subEncode defaultParams 1 0x1B = .ok 0xB ∧ subEncode defaultParams 1 0x3F = .error ⟨.subtypeUnhandled, 0⟩ := ⟨rfl, rfl⟩

theorem witness_SubDecodeFollowsTheTables :
    otherParams.tabM[(8 : BitVec 4).toNat]? = some (.named (.std .beacon)) ∧
    otherParams.tabM[(15 : BitVec 4).toNat]? = some .reserved ∧
    otherParams.tabC[(4 : BitVec 4).toNat]? = some .unhandled ∧
    otherParams.tabD[(15 : BitVec 4).toNat]? = some (.named (.std .qosCfAckCfPoll)) := ⟨rfl, rfl, rfl, rfl⟩

theorem witness_SubEncodeChecksInOrder :
    defaultTabD[(15 : BitVec 4).toNat]? = some (.named (.std .qosCfAckCfPoll)) ∧
    (0x2F : BitVec 6).toNat = 16 * (2 : BitVec 2).toNat + (15 : BitVec 4).toNat ∧
    ((0x08 : BitVec 6) ≠ 0x3E ∧ (0x08 : BitVec 6) ≠ 0x3F ∧
      ∀ nib : BitVec 4, (0x08 : BitVec 6).toNat ≠ 16 * (1 : BitVec 2).toNat + nib.toNat) := by
  decide

theorem witness_FrameControlDecodeInvertsEncode :
    tableEntry defaultParams (frameTypeOf 0) 8 = .named (.std .beacon) := rfl

/-- Each case of the statement occurs. -/
theorem witness_FrameControlEncodeInvertsDecode :
    (0x0C : Byte).extractLsb' 2 2 = 3 ∧
    tableEntry otherParams (frameTypeOf ((0x80 : Byte).extractLsb' 2 2)) ((0x80 : Byte).extractLsb' 4 4) =
      .named (.std .beacon) ∧
    tableEntry otherParams (frameTypeOf ((0x70 : Byte).extractLsb' 2 2)) ((0x70 : Byte).extractLsb' 4 4) = .reserved ∧
    tableEntry otherParams (frameTypeOf ((0x44 : Byte).extractLsb' 2 2)) ((0x44 : Byte).extractLsb' 4 4) = .unhandled := by
  decide

theorem witness_ScnewChecksTheRange : (4095 : BitVec 16).toNat ≤ 4095 ∧ 4095 < (4096 : BitVec 16).toNat := by decide
theorem witness_ScsetChecksBothRanges :
    (4095 : BitVec 16).toNat ≤ 4095 ∧ 4095 < (4096 : BitVec 16).toNat ∧ (15 : BitVec 16).toNat ≤ 15 ∧
    15 < (16 : BitVec 16).toNat := by decide

/-- Two elements and a tail of four bytes, one less than `TLV_TAIL_MIN`. -/
def elements : State := given [0x00, 0x01, 0x54, 0x01, 0x01, 0x82, 0x07, 0x00, 0x09, 0x09]

theorem elements_parsesAs : parsesAs elements [⟨0, [0x54]⟩, ⟨1, [0x82]⟩] [0x07, 0x00, 0x09, 0x09] := by
  refine ⟨by decide, by decide, by decide, fun e h => ?_⟩
  cases h
  decide

theorem witness_TlvdecParsesElements : ∃ s es tail, parsesAs s es tail ∧ es ≠ [] ∧ tail ≠ [] :=
  ⟨_, _, _, elements_parsesAs, by decide, by decide⟩

theorem witness_TlvdecReportsTruncation :
    input (given [0x07, 0x00, 0x00, 0x04, 0x41, 0x42, 0x43]) = flat [⟨7, []⟩] ++ 0x00 :: 0x04 :: [0x41, 0x42, 0x43] ∧
    (∀ e ∈ [(⟨7, []⟩ : Element)], e.pay.length ≤ 255) ∧ [(0x41 : Byte), 0x42, 0x43].length < (0x04 : Byte).toNat ∧
    defaultParams.tlvTailMin ≤ 2 + [(0x41 : Byte), 0x42, 0x43].length := by
  decide

theorem witness_TlvdecConsumesWholeElements :
    2 ≤ elements.params.tlvTailMin ∧ gives .tlvdec elements (fun t => code t == 0) := ⟨by decide, _, rfl, by decide⟩

set_option maxRecDepth 10000 in
/-- Payloads of 255 and 256 bytes; room for exactly the elements and for one byte less. -/
theorem witness_TlvencEmitsElementsInOrder :
    (∀ e ∈ emission ⟨1, [], List.replicate 255 0, []⟩, e.pay.length ≤ 255) ∧
    (∀ e ∈ emission ⟨1, [], [0x82], []⟩, e.pay.length ≤ 255) ∧
    (flat (emission ⟨1, [], [0x82], []⟩)).length ≤ (room 5).room ∧
    (room 4).room < (flat (emission ⟨1, [], [0x82], []⟩)).length ∧
    emission ⟨1, [0x78], [], [⟨7, List.replicate 256 0⟩]⟩ = [⟨0, [0x78]⟩] ++ ⟨7, List.replicate 256 0⟩ :: [] ∧
    255 < (List.replicate 256 (0 : Byte)).length := by
  refine ⟨?_, by decide, by decide, by decide, rfl, by simp⟩
  intro e h
  simp [emission] at h
  rcases h with rfl | rfl <;> simp

/-- The hypotheses met, once by elements that come back and once by elements that do not. -/
theorem witness_TlvParseThenSerialize :
    (∃ t u : State, exec .tlvdec elements = .next t ∧ u.si = t.si ∧ (flat (emission u.si)).length ≤ u.room ∧
      roundTrips defaultParams [⟨0, [0x54]⟩, ⟨1, [0x82]⟩]) ∧
    ∃ s t : State, parsesAs s [⟨1, [0x82]⟩, ⟨0, [0x54, 0x54, 0x54]⟩] [] ∧ exec .tlvdec s = .next t ∧
      (flat (emission t.si)).length ≤ ({ t with ocap := 8 } : State).room := by
  refine ⟨⟨_, { room 6 with si := ⟨1, [0x54], [0x82], []⟩ }, rfl, by decide, by decide,
    [⟨0, [0x54]⟩], [⟨1, [0x82]⟩], [], rfl, .inr ⟨_, rfl, by decide⟩, .inr ⟨_, rfl, by decide⟩, by simp⟩,
    given [0x01, 0x01, 0x82, 0x00, 0x03, 0x54, 0x54, 0x54], _, ⟨by decide, by decide, by decide, fun e h => ?_⟩, rfl, by decide⟩
  cases h
  decide

/-- SI with text, rates and an entry, the last element three payload bytes long, as `TLV_TAIL_MIN` asks. -/
def station : State := { room 14 with si := ⟨1, [0x54], [0x82], [⟨7, [1, 2, 3]⟩]⟩ }

theorem witness_TlvSerializeThenParse :
    2 ≤ station.params.tlvTailMin ∧ ∃ t, exec .tlvenc station = .next t ∧ code t = 0 ∧
      (let u := given [0x00, 0x01, 0x54, 0x01, 0x01, 0x82, 0x07, 0x03, 1, 2, 3]
      u.params = station.params ∧
        input u = (List.range t.res.toNat).map (fun i => t.obufByte (station.ocur.toNat + i))) ∧
      (∀ e, (emission station.si).getLast? = some e → station.params.tlvTailMin ≤ 2 + e.pay.length) ∧
      (∀ e ∈ station.si.data, e.tag ≠ 0 ∧ e.tag ≠ 1) ∧
      utf8 (textDecode station.params station.si.ssid) = station.si.ssid := by
  refine ⟨by decide, _, rfl, by decide, ⟨rfl, by decide⟩, fun e h => ?_, by decide, by decide⟩
  cases h
  decide

theorem witness_TextDecodeMeetsItsConstraints :
    defaultParams.TextOk ∧ (List.replicate 255 (0 : Byte)).length ≤ 255 := ⟨by decide, List.length_replicate.le⟩

/-- One scalar value of each UTF-8 length, the last one before the surrogates and the last one of all among them. -/
theorem witness_TextDecodeInvertsUtf8 :
    defaultParams.TextOk ∧ (∀ c ∈ ([0x7F, 0x7FF, 0xD7FF, 0xE000, 0xFFFF, 0x10FFFF] : List Scalar), isScalarValue c ∧ c ≠ 0) ∧
    (utf8 [0x7F, 0x7FF, 0xD7FF, 0xE000, 0xFFFF, 0x10FFFF]).length ≤ 255 := by
  exact ⟨by decide, by simp [isScalarValue], by simp [utf8, utf8One, continuation]⟩

theorem witness_RatekConverts :
    defaultParams.RatesOk ∧ ((0x82, 1000) : BitVec 8 × BitVec 16) ∈ defaultParams.rateTable ∧
    ∀ r, ((0x99, r) : BitVec 8 × BitVec 16) ∉ defaultParams.rateTable := by
  refine ⟨defaultParams_ratesOk, by decide, fun r h => ?_⟩
  simp [defaultParams, defaultRateTable] at h

theorem witness_KrateConverts :
    defaultParams.RatesOk ∧ ((0x8B, 5500) : BitVec 8 × BitVec 16) ∈ defaultParams.rateTable ∧
    ∀ o, ((o, 5501) : BitVec 8 × BitVec 16) ∉ defaultParams.rateTable := by
  refine ⟨defaultParams_ratesOk, by decide, fun r h => ?_⟩
  simp [defaultParams, defaultRateTable] at h

/-- First part: what MHENC wrote stands at the input cursor. Second part: a Frame Control that encodes, and room. -/
theorem witness_ManagementHeaderRoundTrip :
    (∃ t, exec .mhenc (room 24) = .next t ∧ code t = 0 ∧ 24 ≤ (zeros 24).avail ∧
      ∀ i, i < 24 → inAt (zeros 24) i = t.obufByte ((room 24).ocur.toNat + i)) ∧
    ∃ v w, 24 ≤ ({ zeros 24 with ocap := 24 } : State).avail ∧ exec .fcdec { zeros 24 with ocap := 24 } = .next v ∧
      exec .mhdec v = .next w ∧ 24 ≤ w.room ∧ subEncode w.params w.fc.type w.fc.sub = .ok 0 := by
  exact ⟨⟨_, rfl, by decide, by decide, by decide⟩, _, _, by decide, rfl, rfl, by decide, rfl⟩

/-- A Data frame with all four addresses and QoS control, 32 bytes. -/
def qosFrame : State := withOutput 0 32 (given ([0x88, 0x03] ++ List.replicate 30 0))

/-- The registers DHCTX and DHENC need for it. -/
def qosRegisters : State := { withOutput 0 32 (framed 2 0x28 3) with hd := { State.reset.hd with a4p := 1, qosp := 1 } }

theorem witness_DataHeaderRoundTrip :
    (∃ c t, exec .dhctx qosRegisters = .next c ∧ c.hd = qosRegisters.hd ∧ exec .dhenc qosRegisters = .next t ∧ code t = 0 ∧
      32 ≤ qosFrame.avail ∧ ∀ i, i < 32 → inAt qosFrame i = t.obufByte (qosRegisters.ocur.toNat + i)) ∧
    ∃ v w x, exec .fcdec qosFrame = .next v ∧ exec .dhctx v = .next w ∧ exec .dhdec w = .next x ∧
      24 + 6 * w.hd.a4p.toNat + 2 * w.hd.qosp.toNat ≤ qosFrame.avail ∧
      24 + 6 * w.hd.a4p.toNat + 2 * w.hd.qosp.toNat ≤ x.room ∧ subEncode x.params x.fc.type x.fc.sub = .ok 8 := by
  exact ⟨⟨_, _, rfl, by decide, rfl, by decide, by decide, by decide⟩, _, _, _, rfl, rfl, rfl, by decide, by decide, rfl⟩

/-- A registered pair and one that is not. -/
theorem witness_DispSelectsTheHandler :
    defaultParams.RegistriesOk ∧ nameOfCode defaultParams 0x08 = some (.std .beacon) ∧
    ((frameTypeOf 0, SubtypeName.std .beacon), (1 : BitVec 8)) ∈ defaultParams.handlers ∧
    ∀ n h, nameOfCode defaultParams 0x3E = some n → ((frameTypeOf 0, n), h) ∉ defaultParams.handlers := by
  refine ⟨defaultParams_registriesOk, by decide, by decide, fun n h hn => ?_⟩
  have hnone : nameOfCode defaultParams 0x3E = none := by decide
  cases hnone.symm.trans hn

theorem witness_GselSelectsTheGenerator :
    defaultParams.RegistriesOk ∧ ((2, 2) : BitVec 8 × BitVec 8) ∈ defaultParams.generators ∧
    ∀ h, ((0, h) : BitVec 8 × BitVec 8) ∉ defaultParams.generators := by
  refine ⟨defaultParams_registriesOk, by decide, fun r h => ?_⟩
  simp [defaultParams, defaultGenerators] at h

/-- `ILEN` 2 and 1, a registered subtype in the input. -/
theorem witness_ParseDecodesAndSelects :
    (given [0x80, 0]).params.RegistriesOk ∧ 2 ≤ (given [0x80, 0]).ilen.toNat ∧ (given [0x80]).ilen.toNat < 2 ∧
    nameOfCode defaultParams (subDecode defaultParams ((0x80 : Byte).extractLsb' 2 2) ((0x80 : Byte).extractLsb' 4 4)) =
      some (.std .beacon) ∧
    ((frameTypeOf ((0x80 : Byte).extractLsb' 2 2), SubtypeName.std .beacon), (1 : BitVec 8)) ∈ defaultParams.handlers ∧
    handlerOf defaultParams ⟨0, 1, 0x1B, 0⟩ = none := by
  exact ⟨defaultParams_registriesOk, by decide, by decide, by decide, by decide, by decide⟩

end Sys2Proof.Tests
end

section
/-! The two buffers (20_memory.md R61, R62): no operation writes `IBUF`, and the only use an operation makes of `OBUF`
is to store, at `OCUR`, bytes that do not depend on what `OBUF` holds. -/

namespace Sys2Proof.Machine

/-! ## Operations, an equation per case

Those whose cases turn on a value computed from the registers. -/

theorem encodeAfterFc_error {s : State} {r : Report} (rest : List Byte) (h : fcPack s.params s.fc = .error r) :
    encodeAfterFc rest s = .next (s.raised r) := by
  simp [encodeAfterFc, h]

theorem encodeAfterFc_ok {s : State} {w : List Byte} (rest : List Byte) (h : fcPack s.params s.fc = .ok w) :
    encodeAfterFc rest s = encodeAtOcur (w ++ rest) s := by
  simp [encodeAfterFc, h]

theorem selectHandler_some {s : State} {v : BitVec 8} (remaining : Nat) (h : handlerOf s.params s.fc = some v) :
    selectHandler remaining s = .next (s.putHsel v).finished := by
  simp [selectHandler, h]

theorem selectHandler_none {s : State} (remaining : Nat) (h : handlerOf s.params s.fc = none) :
    selectHandler remaining s = .next (s.raised ⟨.unhandledFrameSubtype, BitVec.ofNat 32 remaining⟩) := by
  simp [selectHandler, h]

theorem execGsel_some {s : State} {v : BitVec 8} (h : generatorOf s.params s.fvar = some v) :
    execGsel s = .next ((s.putHsel v).putOcur 0).finished := by
  simp [execGsel, h]

theorem execGsel_none {s : State} (h : generatorOf s.params s.fvar = none) :
    execGsel s = .next (s.raised ⟨.notImplemented, s.fvar.setWidth 32⟩) := by
  simp [execGsel, h]

theorem execStenc_error {s : State} {r : Report} (h : subEncode s.params s.fc.type s.fc.sub = .error r) :
    execStenc s = .next (s.raised r) := by
  simp [execStenc, h]

theorem execStenc_ok {s : State} {n : BitVec 4} (h : subEncode s.params s.fc.type s.fc.sub = .ok n) :
    execStenc s = .next (s.putRes (n.setWidth 32)).finished := by
  simp [execStenc, h]

theorem execRatek_none {s : State} (h : rateOfOctet s.params.rateTable (opaOctet s.opa) = none) :
    execRatek s = .next (s.raised ⟨.rateUnknown, (opaOctet s.opa).setWidth 32⟩) := by
  simp [execRatek, h]

theorem execRatek_some {s : State} {r : BitVec 16} (h : rateOfOctet s.params.rateTable (opaOctet s.opa) = some r) :
    execRatek s = .next (s.putRes (r.setWidth 32)).finished := by
  simp [execRatek, h]

theorem execKrate_none {s : State} (h : octetOfRate s.params.rateTable s.opa = none) :
    execKrate s = .next (s.raised ⟨.rateNoEncoding, s.opa.setWidth 32⟩) := by
  simp [execKrate, h]

theorem execKrate_some {s : State} {o : BitVec 8} (h : octetOfRate s.params.rateTable s.opa = some o) :
    execKrate s = .next (s.putRes (o.setWidth 32)).finished := by
  simp [execKrate, h]

/-- How TLVDEC's loop ends on the slice at `ICUR` (42_tlv_station_info.md R166). -/
def State.parsedSlice (s : State) : Except Nat (StationInfo × List Byte) :=
  parseElements s.params.tlvTailMin (ssidText s.params) s.avail (s.memRead s.icur.toNat s.avail) emptyStationInfo

theorem execTlvdec_error {s : State} {missing : Nat} (h : s.parsedSlice = .error missing) :
    execTlvdec s = .next (s.raised (incomplete missing)) := by
  unfold State.parsedSlice at h
  simp [execTlvdec, h]

theorem execTlvdec_ok {s : State} {si : StationInfo} {tail : List Byte} (h : s.parsedSlice = .ok (si, tail)) :
    execTlvdec s = .next (((s.putSi si).putRes (BitVec.ofNat 32 (s.avail - tail.length))).advanceIcur
      (s.avail - tail.length)).finished := by
  unfold State.parsedSlice at h
  simp [execTlvdec, h]

theorem execTlvenc_tooLong {s : State} {i len : Nat} (h : firstTooLong 0 (emittedElements s.si) = some (i, len)) :
    execTlvenc s = .next (s.raised (elementTooLong i len)) := by
  simp [execTlvenc, h]

theorem execTlvenc_full {s : State} {out : List Byte} (h : firstTooLong 0 (emittedElements s.si) = none)
    (hout : (emittedElements s.si).flatMap elementBytes = out) (hroom : s.room < out.length) :
    execTlvenc s = .next (s.raised (bufferTooSmall s out.length)) := by
  simp only [execTlvenc, h, hout, if_pos hroom, raise_eq_next]

theorem execTlvenc_fits {s : State} {out : List Byte} (h : firstTooLong 0 (emittedElements s.si) = none)
    (hout : (emittedElements s.si).flatMap elementBytes = out) (hroom : ¬ s.room < out.length) :
    execTlvenc s = .next ((s.putRes (BitVec.ofNat 32 out.length)).emit out).finished := by
  simp only [execTlvenc, h, hout, if_neg hroom, finish_eq_next]

/-! ## Storing at `OCUR` only -/

/-- `s` with other contents of `OBUF`. -/
def State.withObuf (s : State) (m : Memory) : State := { s with obuf := m }

/-- `run m` is what an operation answers in `s` with `OBUF` holding `m`: for every `m` it ends in `t`, the same but for
`OBUF`, where it has stored `out` at `OCUR`. -/
structure Stores (s : State) (run : Memory → Result) (t : State) (out : List Byte) : Prop where
  ibuf_eq : t.ibuf = s.ibuf
  env_eq : t.env = s.env
  run_eq : ∀ m, run m = .next (t.withObuf ((s.withObuf m).emit out).obuf)

/-- Whatever `OBUF` holds, the operation stores the same bytes and gives the same registers. -/
def StoresAtOcur (s : State) (run : Memory → Result) : Prop := ∃ t out, Stores s run t out

/-- An operation that ends in `t` and leaves `OBUF` as it is. -/
theorem StoresAtOcur.of_keepsObuf {s : State} {run : Memory → Result} (t : State)
    (hrun : ∀ m, run m = .next (t.withObuf m)) (hibuf : t.ibuf = s.ibuf := by rfl) (henv : t.env = s.env := by rfl) :
    StoresAtOcur s run :=
  ⟨t, [], hibuf, henv, hrun⟩

/-- An operation that ends in an error. -/
theorem StoresAtOcur.of_raised {s : State} {run : Memory → Result} (r : Report)
    (hrun : ∀ m, run m = .next ((s.withObuf m).raised r)) : StoresAtOcur s run :=
  .of_keepsObuf (s.raised r) hrun

/-- A decode operation stores nothing, where what it puts is put alike whatever `OBUF` holds, and not into the
buffers. -/
theorem decodeAtIcur_storesAtOcur (n : Nat) (put : List Byte → State → State) (s : State)
    (hput : ∀ b m, put b (s.withObuf m) = (put b s).withObuf m := by intros; rfl)
    (hibuf : ∀ b, (put b s).ibuf = s.ibuf := by intros; rfl) (henv : ∀ b, (put b s).env = s.env := by intros; rfl) :
    StoresAtOcur s fun m => decodeAtIcur n put (s.withObuf m) := by
  by_cases h : s.avail < n
  · exact .of_raised (incomplete (n - s.avail)) fun m => decodeAtIcur_short n put (s.withObuf m) h
  · refine .of_keepsObuf ((put (s.memRead s.icur.toNat n) s).advanceIcur n).finished (fun m => ?_) (hibuf _) (henv _)
    rw [decodeAtIcur_enough n put (s.withObuf m) (Nat.not_lt.1 h), hput]
    rfl

/-- An encode operation stores its output, or nothing when there is no room. -/
theorem encodeAtOcur_storesAtOcur (out : List Byte) (s : State) :
    StoresAtOcur s fun m => encodeAtOcur out (s.withObuf m) := by
  by_cases h : s.room < out.length
  · exact .of_raised (bufferTooSmall s out.length) fun m => encodeAtOcur_full out (s.withObuf m) h
  · exact ⟨(s.emit out).finished, out, rfl, rfl, fun m => encodeAtOcur_fits out (s.withObuf m) (Nat.not_lt.1 h)⟩

theorem encodeAfterFc_storesAtOcur (rest : List Byte) (s : State) :
    StoresAtOcur s fun m => encodeAfterFc rest (s.withObuf m) := by
  cases h : fcPack s.params s.fc with
  | error r => exact .of_raised r fun m => encodeAfterFc_error (s := s.withObuf m) rest h
  | ok w =>
    have hrun : ∀ m, encodeAfterFc rest (s.withObuf m) = encodeAtOcur (w ++ rest) (s.withObuf m) :=
      fun m => encodeAfterFc_ok rest h
    simp only [hrun]
    exact encodeAtOcur_storesAtOcur (w ++ rest) s

/-- The selection is made from the state `u` that PARSE has reached, or DISP begins in. -/
theorem selectHandler_storesAtOcur (remaining : Nat) {s u : State} (hibuf : u.ibuf = s.ibuf) (henv : u.env = s.env) :
    StoresAtOcur s fun m => selectHandler remaining (u.withObuf m) := by
  cases h : handlerOf u.params u.fc with
  | some v =>
    exact .of_keepsObuf (u.putHsel v).finished (fun m => selectHandler_some (s := u.withObuf m) remaining h) hibuf henv
  | none =>
    exact .of_keepsObuf (u.raised ⟨.unhandledFrameSubtype, BitVec.ofNat 32 remaining⟩)
      (fun m => selectHandler_none (s := u.withObuf m) remaining h) hibuf henv

/-! ## Every operation stores at `OCUR` only -/

section
variable (s : State)

theorem execStenc_storesAtOcur : StoresAtOcur s fun m => execStenc (s.withObuf m) := by
  cases h : subEncode s.params s.fc.type s.fc.sub with
  | error r => exact .of_raised r fun m => execStenc_error (s := s.withObuf m) h
  | ok n => exact .of_keepsObuf (s.putRes (n.setWidth 32)).finished fun m => execStenc_ok (s := s.withObuf m) h

theorem execScnew_storesAtOcur : StoresAtOcur s fun m => execScnew (s.withObuf m) := by
  by_cases h : 4095 < s.opa
  · exact .of_raised (seqOutOfRange s.opa) fun m => if_pos h
  · exact .of_keepsObuf (s.putSc ⟨0, opaSeq s.opa⟩).finished fun m => if_neg h

theorem execScset_storesAtOcur : StoresAtOcur s fun m => execScset (s.withObuf m) := by
  by_cases hseq : 4095 < s.opa
  · exact .of_raised (seqOutOfRange s.opa) fun m => if_pos hseq
  · by_cases hfrag : 15 < s.opb
    · exact .of_raised (fragOutOfRange s.opb) fun m => (if_neg hseq).trans (if_pos hfrag)
    · exact .of_keepsObuf (s.putSc ⟨opbFrag s.opb, opaSeq s.opa⟩).finished
        fun m => (if_neg hseq).trans (if_neg hfrag)

theorem execMacdec_storesAtOcur (k : BitVec 8) : StoresAtOcur s fun m => execMacdec k (s.withObuf m) := by
  by_cases h : addrArgOk k = true
  · simp only [execMacdec, if_pos h]
    exact decodeAtIcur_storesAtOcur _ _ s
  · exact .of_raised (illegalCommand (encode (.macdec k))) fun m => if_neg h

theorem execMacenc_storesAtOcur (k : BitVec 8) : StoresAtOcur s fun m => execMacenc k (s.withObuf m) := by
  by_cases h : addrArgOk k = true
  · simp only [execMacenc, if_pos h]
    exact encodeAtOcur_storesAtOcur (addrReg s.hd k).bytes s
  · exact .of_raised (illegalCommand (encode (.macenc k))) fun m => if_neg h

theorem execTlvdec_storesAtOcur : StoresAtOcur s fun m => execTlvdec (s.withObuf m) := by
  cases h : s.parsedSlice with
  | error missing => exact .of_raised (incomplete missing) fun m => execTlvdec_error (s := s.withObuf m) h
  | ok parsed =>
    exact .of_keepsObuf (((s.putSi parsed.1).putRes (BitVec.ofNat 32 (s.avail - parsed.2.length))).advanceIcur
      (s.avail - parsed.2.length)).finished fun m => execTlvdec_ok (s := s.withObuf m) h

theorem execTlvenc_storesAtOcur : StoresAtOcur s fun m => execTlvenc (s.withObuf m) := by
  cases h : firstTooLong 0 (emittedElements s.si) with
  | some e => exact .of_raised (elementTooLong e.1 e.2) fun m => execTlvenc_tooLong (s := s.withObuf m) h
  | none =>
    generalize hout : (emittedElements s.si).flatMap elementBytes = out
    by_cases hroom : s.room < out.length
    · exact .of_raised (bufferTooSmall s out.length) fun m => execTlvenc_full (s := s.withObuf m) h hout hroom
    · exact ⟨((s.putRes (BitVec.ofNat 32 out.length)).emit out).finished, out, rfl, rfl,
        fun m => execTlvenc_fits (s := s.withObuf m) h hout hroom⟩

theorem execRatek_storesAtOcur : StoresAtOcur s fun m => execRatek (s.withObuf m) := by
  cases h : rateOfOctet s.params.rateTable (opaOctet s.opa) with
  | none =>
    exact .of_raised ⟨.rateUnknown, (opaOctet s.opa).setWidth 32⟩ fun m => execRatek_none (s := s.withObuf m) h
  | some r => exact .of_keepsObuf (s.putRes (r.setWidth 32)).finished fun m => execRatek_some (s := s.withObuf m) h

theorem execKrate_storesAtOcur : StoresAtOcur s fun m => execKrate (s.withObuf m) := by
  cases h : octetOfRate s.params.rateTable s.opa with
  | none => exact .of_raised ⟨.rateNoEncoding, s.opa.setWidth 32⟩ fun m => execKrate_none (s := s.withObuf m) h
  | some o => exact .of_keepsObuf (s.putRes (o.setWidth 32)).finished fun m => execKrate_some (s := s.withObuf m) h

theorem execGsel_storesAtOcur : StoresAtOcur s fun m => execGsel (s.withObuf m) := by
  cases h : generatorOf s.params s.fvar with
  | some v =>
    exact .of_keepsObuf ((s.putHsel v).putOcur 0).finished fun m => execGsel_some (s := s.withObuf m) h
  | none => exact .of_raised ⟨.notImplemented, s.fvar.setWidth 32⟩ fun m => execGsel_none (s := s.withObuf m) h

theorem execParse_storesAtOcur : StoresAtOcur s fun m => execParse (s.withObuf m) := by
  by_cases h : s.ilen.toNat < 2
  · exact .of_raised (incomplete (2 - s.ilen.toNat)) fun m => if_pos h
  · have hsel : ∀ m, execParse (s.withObuf m) = selectHandler (s.ilen.toNat - 2)
        (((s.putFc (fcUnpack s.params (s.memRead 0 2))).putIcur 2).withObuf m) := fun m => if_neg h
    simp only [hsel]
    exact selectHandler_storesAtOcur _ rfl rfl

end

/-- R61 and R62 in one: every operation uses the buffers only by storing at `OCUR`, and what it stores and answers does
not depend on what `OBUF` holds. -/
theorem exec_storesAtOcur (i : Instr) (s : State) : StoresAtOcur s fun m => exec i (s.withObuf m) := by
  cases i with
  | nop => exact .of_keepsObuf s.finished fun _ => rfl
  | clrs => exact .of_keepsObuf ({ s with status := statusWord 0 .ok } : State).finished fun _ => rfl
  | rst => exact .of_keepsObuf s.registersReset.finished fun _ => rfl
  | stdec =>
    exact .of_keepsObuf (s.putFc { s.fc with sub := subDecode s.params s.fc.type (opaNibble s.opa) }).finished
      fun _ => rfl
  | dhctx =>
    exact .of_keepsObuf (s.putHd { s.hd with a4p := a4pOf s.fc, qosp := qospOf s.params s.fc }).finished
      fun _ => rfl
  | skip n => simp only [exec, execSkip]; exact decodeAtIcur_storesAtOcur _ _ s
  | fcdec => simp only [exec, execFcdec]; exact decodeAtIcur_storesAtOcur _ _ s
  | scdec => simp only [exec, execScdec]; exact decodeAtIcur_storesAtOcur _ _ s
  | capdec => simp only [exec, execCapdec]; exact decodeAtIcur_storesAtOcur _ _ s
  | mhdec => simp only [exec, execMhdec]; exact decodeAtIcur_storesAtOcur _ _ s
  | dhdec => simp only [exec, execDhdec]; exact decodeAtIcur_storesAtOcur (22 + optionalLength s.hd) _ s
  | macdec k => exact execMacdec_storesAtOcur s k
  | tlvdec => exact execTlvdec_storesAtOcur s
  | scenc => exact encodeAtOcur_storesAtOcur (scPack s.sc) s
  | capenc => exact encodeAtOcur_storesAtOcur (bytesLe16 s.cap) s
  | fcenc => exact encodeAfterFc_storesAtOcur [] s
  | mhenc => exact encodeAfterFc_storesAtOcur (commonBytes s) s
  | dhenc => exact encodeAfterFc_storesAtOcur (commonBytes s ++ optionalBytes s.hd) s
  | macenc k => exact execMacenc_storesAtOcur s k
  | tlvenc => exact execTlvenc_storesAtOcur s
  | stenc => exact execStenc_storesAtOcur s
  | scnew => exact execScnew_storesAtOcur s
  | scset => exact execScset_storesAtOcur s
  | ratek => exact execRatek_storesAtOcur s
  | krate => exact execKrate_storesAtOcur s
  | disp => exact selectHandler_storesAtOcur s.avail rfl rfl
  | gsel => exact execGsel_storesAtOcur s
  | parse => exact execParse_storesAtOcur s

/-! ## What follows for the buffers -/

/-- The operation's answer in `s` itself, by what it stores. -/
theorem exec_next_stores {i : Instr} {s t : State} (h : exec i s = .next t) :
    ∃ out, Stores s (fun m => exec i (s.withObuf m)) t out ∧ t.obuf = (s.emit out).obuf := by
  obtain ⟨u, out, hibuf, henv, hrun⟩ := exec_storesAtOcur i s
  have ht : t = u.withObuf (s.emit out).obuf := by
    have hs : exec i s = .next (u.withObuf (s.emit out).obuf) := hrun s.obuf
    simpa [h] using hs
  subst ht
  exact ⟨out, ⟨hibuf, henv, hrun⟩, rfl⟩

theorem State.ibufByte_congr {s t : State} (hibuf : t.ibuf = s.ibuf) (henv : t.env = s.env) (a : Nat) :
    t.ibufByte a = s.ibufByte a := by
  rw [State.ibufByte, State.ibufByte, hibuf, henv]

theorem State.obufByte_congr {s t : State} (hobuf : t.obuf = s.obuf) (henv : t.env = s.env) (a : Nat) :
    t.obufByte a = s.obufByte a := by
  rw [State.obufByte, State.obufByte, hobuf, henv]

/-- A byte after the same output went into two buffers: it is the output's, or what each buffer held. -/
theorem State.emit_obufByte_two (s : State) (m : Memory) (out : List Byte) (a : Nat) :
    ((s.withObuf m).emit out).obufByte a = (s.emit out).obufByte a ∨
      ((s.emit out).obufByte a = s.obufByte a ∧
        ((s.withObuf m).emit out).obufByte a = (s.withObuf m).obufByte a) := by
  by_cases ha : a < s.ocur.toNat ∨ s.ocur.toNat + out.length ≤ a
  · exact .inr ⟨State.emit_obufByte_outside s out a ha, State.emit_obufByte_outside (s.withObuf m) out a ha⟩
  · obtain ⟨i, rfl⟩ : ∃ i, a = s.ocur.toNat + i := Nat.exists_eq_add_of_le (by omega)
    have hi : i < out.length := by omega
    exact .inl ((State.emit_obufByte_inside (s.withObuf m) out i hi).trans (State.emit_obufByte_inside s out i hi).symm)

end Sys2Proof.Machine

namespace Sys2Proof.Proofs

open Sys2Proof.Machine

/-- Settles O18: what every operation ends in holds the `IBUF` it began with. -/
theorem inputBufferIsNeverWritten : Obligations.InputBufferIsNeverWritten := by
  intro i s t h
  obtain ⟨_, hstores, _⟩ := exec_next_stores h
  exact ⟨hstores.ibuf_eq, State.ibufByte_congr hstores.ibuf_eq hstores.env_eq⟩

/-- Settles O19: the second run stores the same bytes at the same place, so a byte inside them agrees and a byte outside
them is left in both. -/
theorem outputBufferIsNeverRead : Obligations.OutputBufferIsNeverRead := by
  intro i s t m h
  obtain ⟨out, hstores, hobuf⟩ := exec_next_stores h
  refine ⟨_, hstores.run_eq m, rfl, fun a => ?_⟩
  have ht : t.obufByte a = (s.emit out).obufByte a := State.obufByte_congr hobuf hstores.env_eq a
  have ht' : (t.withObuf ((s.withObuf m).emit out).obuf).obufByte a = ((s.withObuf m).emit out).obufByte a :=
    State.obufByte_congr (s := (s.withObuf m).emit out) (t := t.withObuf _) rfl hstores.env_eq a
  rw [ht, ht']
  exact State.emit_obufByte_two s m out a

end Sys2Proof.Proofs
end

section
/-! The command words (30_encoding.md R80 to R85): which words the opcode map accepts, that decoding and encoding are
inverse to each other on them, and what a step makes of a word. -/

namespace Sys2Proof

/-! ## A word and its two fields (R80) -/

theorem argField_append_opcodeField (w : CommandWord) :
    (argField w ++ opcodeField w : BitVec (8 + 8)) = w := by
  unfold argField opcodeField
  rw [BitVec.extractLsb'_append_extractLsb'_eq_extractLsb' (start₁ := 0) (start₂ := 8) rfl]
  exact BitVec.extractLsb'_eq_self

theorem encode_eq_iff (i : Instr) (w : CommandWord) :
    encode i = w ↔ i.opcode = opcodeField w ∧ i.arg = argField w := by
  constructor
  · rintro rfl
    obtain ⟨hop, harg⟩ := Laws.encode_halves i.arg i.opcode
    exact ⟨hop.symm, harg.symm⟩
  · rintro ⟨hop, harg⟩
    rw [encode, hop, harg]
    exact argField_append_opcodeField w

/-! ## The rows of the opcode map (R81, R84) -/

/-- The arguments a format admits (R81). -/
def Format.admits : Format → BitVec 8 → Bool
  | .N, arg => arg == 0
  | .K, arg => addrArgOk arg
  | .B, _ => true

theorem addrArgOk_iff (k : BitVec 8) : addrArgOk k = true ↔ k ∈ ([1, 2, 3, 4] : List (BitVec 8)) := by
  simp [addrArgOk, or_assoc]

/-- A row selects its operation on exactly the arguments its format admits. -/
theorem Row.select_eq_ok_iff (r : Row) (arg : BitVec 8) (i : Instr) :
    r.select arg = .ok i ↔ r.format.admits arg = true ∧ r.instr arg = i := by
  unfold Row.select
  cases r.format with
  | N => by_cases h : arg = 0#8 <;> simp [Format.admits, h]
  | K => by_cases h : addrArgOk arg = true <;> simp [Format.admits, h]
  | B => simp [Format.admits]

/-- What a row selects has the row's opcode and, where the format admits the argument, that argument. -/
structure Row.Sound (r : Row) : Prop where
  opcode_eq : ∀ arg, (r.instr arg).opcode = r.opcode
  arg_eq : ∀ arg, r.format.admits arg = true → (r.instr arg).arg = arg
  wellFormed : ∀ arg, r.format.admits arg = true → (r.instr arg).wellFormed = true

theorem Row.Sound.of_N {o : BitVec 8} {i : Instr} (hop : i.opcode = o := by rfl) (harg : i.arg = 0 := by rfl)
    (hwf : i.wellFormed = true := by rfl) : Row.Sound ⟨o, .N, fun _ => i⟩ where
  opcode_eq _ := hop
  arg_eq _ hadmits := harg.trans (eq_of_beq hadmits).symm
  wellFormed _ _ := hwf

theorem Row.Sound.of_K {o : BitVec 8} {op : BitVec 8 → Instr} (hop : ∀ k, (op k).opcode = o := by intro; rfl)
    (harg : ∀ k, (op k).arg = k := by intro; rfl) (hwf : ∀ k, (op k).wellFormed = addrArgOk k := by intro; rfl) :
    Row.Sound ⟨o, .K, op⟩ where
  opcode_eq := hop
  arg_eq k _ := harg k
  wellFormed k hadmits := (hwf k).trans hadmits

theorem Row.Sound.of_B {o : BitVec 8} {op : BitVec 8 → Instr} (hop : ∀ n, (op n).opcode = o := by intro; rfl)
    (harg : ∀ n, (op n).arg = n := by intro; rfl) (hwf : ∀ n, (op n).wellFormed = true := by intro; rfl) :
    Row.Sound ⟨o, .B, op⟩ where
  opcode_eq := hop
  arg_eq n _ := harg n
  wellFormed n _ := hwf n

theorem opcodeMap_sound : ∀ r ∈ opcodeMap, r.Sound := by
  simp only [opcodeMap, List.forall_mem_cons]
  exact ⟨.of_N, .of_N, .of_N, .of_B,
    .of_N, .of_N, .of_N, .of_N,
    .of_N, .of_N, .of_N, .of_N, .of_K, .of_K, .of_N, .of_N,
    .of_N, .of_N, .of_N, .of_N,
    .of_N, .of_N, .of_N, .of_N, .of_N,
    .of_N, .of_N, .of_N, List.forall_mem_nil _⟩

/-- The row of an opcode. -/
def rowOf (o : BitVec 8) : Option Row := opcodeMap.find? fun r => r.opcode == o

theorem mem_of_rowOf {o : BitVec 8} {r : Row} (h : rowOf o = some r) : r ∈ opcodeMap ∧ r.opcode = o :=
  ⟨List.mem_of_find?_eq_some h, eq_of_beq (List.find?_some (p := fun r : Row => r.opcode == o) h)⟩

/-- Every operation has a row, which gives it back from its own argument and whose format says whether it is
well-formed. -/
theorem exists_rowOf (i : Instr) :
    ∃ r, rowOf i.opcode = some r ∧ r.format.admits i.arg = i.wellFormed ∧ r.instr i.arg = i := by
  cases i <;> exact ⟨_, rfl, rfl, rfl⟩

/-! ## Decoding (R82) -/

theorem decode_eq_ok_iff_row (w : CommandWord) (i : Instr) :
    decode w = .ok i ↔
      ∃ r, rowOf (opcodeField w) = some r ∧ r.format.admits (argField w) = true ∧ r.instr (argField w) = i := by
  simp only [← Row.select_eq_ok_iff]
  unfold decode rowOf
  split
  · next h => simp [h]
  · next r h => simp [h]

theorem decode_encode (i : Instr) (hwf : i.wellFormed = true) : decode (encode i) = .ok i := by
  obtain ⟨hop, harg⟩ := Laws.encode_halves i.arg i.opcode
  obtain ⟨r, hrow, hadmits, hinstr⟩ := exists_rowOf i
  rw [decode_eq_ok_iff_row]
  exact ⟨r, by rw [encode, hop, hrow], by rw [encode, harg, hadmits, hwf], by rw [encode, harg, hinstr]⟩

/-- What a row accepts is the word of a well-formed operation. -/
theorem Row.Sound.encode_instr {r : Row} (hr : r.Sound) {w : CommandWord} (hop : r.opcode = opcodeField w)
    (hadmits : r.format.admits (argField w) = true) :
    encode (r.instr (argField w)) = w ∧ (r.instr (argField w)).wellFormed = true :=
  ⟨(encode_eq_iff _ w).2 ⟨(hr.opcode_eq _).trans hop, hr.arg_eq _ hadmits⟩, hr.wellFormed _ hadmits⟩

theorem encode_of_decode {w : CommandWord} {i : Instr} (h : decode w = .ok i) :
    encode i = w ∧ i.wellFormed = true := by
  obtain ⟨r, hrow, hadmits, rfl⟩ := (decode_eq_ok_iff_row w i).1 h
  obtain ⟨hmem, hop⟩ := mem_of_rowOf hrow
  exact (opcodeMap_sound r hmem).encode_instr hop hadmits

/-! ## The words that select an operation (R82, R84, R85) -/

/-- The opcodes of a format's rows. -/
def opcodesOf (f : Format) : List (BitVec 8) := (opcodeMap.filter fun r => r.format == f).map Row.opcode

theorem mem_opcodesOf_iff (f : Format) (o : BitVec 8) :
    o ∈ opcodesOf f ↔ ∃ r ∈ opcodeMap, r.format = f ∧ r.opcode = o := by
  simp [opcodesOf, and_assoc]

/-- A word selects an operation when its opcode is one of a format that admits its argument. -/
theorem exists_decode_iff (w : CommandWord) :
    (∃ i, decode w = .ok i) ↔ ∃ f, opcodeField w ∈ opcodesOf f ∧ f.admits (argField w) = true := by
  constructor
  · rintro ⟨i, h⟩
    obtain ⟨r, hrow, hadmits, _⟩ := (decode_eq_ok_iff_row w i).1 h
    obtain ⟨hmem, hop⟩ := mem_of_rowOf hrow
    exact ⟨r.format, (mem_opcodesOf_iff _ _).2 ⟨r, hmem, rfl, hop⟩, hadmits⟩
  · rintro ⟨f, hf, hadmits⟩
    obtain ⟨r, hmem, rfl, hop⟩ := (mem_opcodesOf_iff _ _).1 hf
    obtain ⟨henc, hwf⟩ := (opcodeMap_sound r hmem).encode_instr hop hadmits
    exact ⟨_, henc ▸ decode_encode _ hwf⟩

theorem opcodesOf_B : opcodesOf .B = [0x03] := rfl

theorem opcodesOf_K : opcodesOf .K = [0x24, 0x25] := rfl

theorem opcodesOf_N : opcodesOf .N =
    [0x00, 0x01, 0x02, 0x10, 0x11, 0x12, 0x13, 0x20, 0x21, 0x22, 0x23, 0x26, 0x27, 0x30, 0x31, 0x32, 0x33,
      0x40, 0x41, 0x42, 0x43, 0x44, 0x50, 0x51, 0x52] := rfl

theorem Format.exists_iff {p : Format → Prop} : (∃ f, p f) ↔ p .B ∨ p .K ∨ p .N := by
  constructor
  · rintro ⟨f, h⟩
    cases f with
    | N => exact .inr (.inr h)
    | K => exact .inr (.inl h)
    | B => exact .inl h
  · rintro (h | h | h) <;> exact ⟨_, h⟩

/-- The illegal words of R85, listed there by opcode and argument, are those the decoder maps to no operation. -/
theorem illegalWord_iff (w : CommandWord) : Spec.illegalWord w ↔ ¬ ∃ i, decode w = .ok i := by
  rw [exists_decode_iff, Format.exists_iff, opcodesOf_B, opcodesOf_K, opcodesOf_N, Spec.illegalWord]
  refine not_congr (or_congr ?_ (or_congr ?_ ?_))
  · simp [opcodeField, Format.admits]
  · exact and_congr_right' (addrArgOk_iff _).symm
  · exact and_comm.trans (and_congr_right' beq_iff_eq.symm)

end Sys2Proof

namespace Sys2Proof.Machine

theorem runCommand_of_decode_ok {w : CommandWord} {i : Instr} (h : decode w = .ok i) (s : State) :
    runCommand w s = exec i s := by
  obtain ⟨j, hj, hrun⟩ | ⟨e, he, -⟩ := runCommand_cases w s
  · obtain rfl : j = i := Except.ok.inj (hj.symm.trans h)
    exact hrun
  · exact absurd (he.symm.trans h) nofun

theorem step_of_script_cons {s : State} {a : HostAction} {rest : List HostAction} (h : s.env.script = a :: rest) :
    step s = runAction a (s.withScript rest) := by
  obtain ⟨hnil, -⟩ | ⟨a', rest', hcons, hstep⟩ := step_cases s
  · exact absurd (hnil.symm.trans h) nofun
  · obtain ⟨rfl, rfl⟩ := List.cons.inj (hcons.symm.trans h)
    exact hstep

end Sys2Proof.Machine

namespace Sys2Proof.Proofs

open Sys2Proof.Machine

/-- Settles O1: the operation's own row is the one its opcode finds. -/
theorem decodeOfEncodeIsIdentity : Obligations.DecodeOfEncodeIsIdentity :=
  decode_encode

/-- Settles O2: the row that accepts a word selects an operation with the word's opcode and argument. -/
theorem encodeOfDecodeIsIdentity : Obligations.EncodeOfDecodeIsIdentity :=
  fun _ _ => encode_of_decode

/-- Settles O5: the illegal words are those that decode to no operation. -/
theorem illegalWordsRaiseIllegalCommand : Obligations.IllegalWordsRaiseIllegalCommand := by
  refine ⟨fun s w => ?_, decode_encode .nop rfl⟩
  rw [illegalWord_iff]
  obtain ⟨i, hi, hrun⟩ | ⟨e, he, hrun⟩ := runCommand_cases w s
  · exact ⟨fun h => absurd ⟨i, hi⟩ h, fun _ => ⟨i, hi, hrun⟩⟩
  · exact ⟨fun _ => hrun, fun h => absurd (by simp [he]) h⟩

/-- Settles O3: each word is the word of its operation. -/
theorem commandWordsSelectTheirOperations : Obligations.CommandWordsSelectTheirOperations :=
  ⟨decode_encode .nop rfl, decode_encode .fcdec rfl, decode_encode (.macdec 2) rfl, decode_encode (.skip 10) rfl,
    decode_encode .parse rfl, decode_encode .tlvenc rfl, decode_encode .dhenc rfl⟩

/-- Settles O4: the first action of the script happens, and a word that decodes runs its operation. -/
theorem stepRunsTheDecodedOperation : Obligations.StepRunsTheDecodedOperation := by
  intro s w rest hscript
  have hstep : step s = runCommand w (s.withScript rest) := step_of_script_cons hscript
  exact ⟨hstep, fun i hi => hstep.trans (runCommand_of_decode_ok hi _)⟩

end Sys2Proof.Proofs
end

section
/-! How the words of the statements meet the model: the two reports an operation ends in, and the statements `decodes`,
`encodes` and `encodesAfterFc` from the shapes `decodeAtIcur`, `encodeAtOcur` and `encodeAfterFc` (20_memory.md R66,
60_exceptions.md R265). -/

namespace Sys2Proof.Machine

open Sys2Proof.Spec

theorem State.finished_eq_okReport (s : State) : s.finished = okReport s := rfl

theorem State.raised_eq_errReport (s : State) (r : Report) : s.raised r = errReport r.code.number r.info s := rfl

/-- Of the registers, `put` leaves `ICUR` alone: the shape moves it. -/
theorem decodes_of_decodeAtIcur {i : Instr} {s after : State} {n : Nat} {put : List Byte → State → State}
    (hrun : exec i s = decodeAtIcur n put s) (hput : put (s.memRead s.icur.toNat n) s = after)
    (hicur : after.icur = s.icur := by rfl) : decodes i s n after := by
  constructor
  · intro henough
    rw [hrun, decodeAtIcur_enough n put s henough, hput, State.advanceIcur, hicur, State.finished_eq_okReport]
  · intro hshort
    rw [hrun, decodeAtIcur_short n put s hshort, State.raised_eq_errReport]
    rfl

theorem State.emit_wroteAtCursor (s : State) (out : List Byte) : wroteAtCursor s (s.emit out).finished out := by
  refine ⟨rfl, fun i hi => ?_, fun a ha => ?_⟩
  · rw [State.finished_obufByte, State.emit_obufByte_inside s out i hi]
  · rw [State.finished_obufByte, State.emit_obufByte_outside s out a ha]

theorem encodes_of_encodeAtOcur {i : Instr} {s : State} {out : List Byte} (hrun : exec i s = encodeAtOcur out s) :
    encodes i s out := by
  constructor
  · intro hfits
    exact ⟨_, hrun.trans (encodeAtOcur_fits out s hfits), s.emit_wroteAtCursor out⟩
  · intro hfull
    rw [hrun, encodeAtOcur_full out s hfull, State.raised_eq_errReport]
    rfl

/-- `FcPack` propagates what `SubEncode` raises (40_frame_control.md R103, R109). -/
theorem fcPack_error {p : Params} {fc : FrameControl} {r : Report} (h : subEncode p fc.type fc.sub = .error r) :
    fcPack p fc = .error r := by
  simp [fcPack, h]

theorem fcPack_ok {p : Params} {fc : FrameControl} {nib : BitVec 4} (h : subEncode p fc.type fc.sub = .ok nib) :
    fcPack p fc = .ok (fcOut nib fc) := by
  simp [fcPack, h, fcOut]

theorem encodesAfterFc_of_encodeAfterFc {i : Instr} {s : State} {rest : List Byte}
    (hrun : exec i s = encodeAfterFc rest s) : encodesAfterFc i s rest := by
  constructor
  · intro nib hnib
    exact encodes_of_encodeAtOcur (hrun.trans (encodeAfterFc_ok rest (fcPack_ok hnib)))
  · intro r hr
    rw [hrun, encodeAfterFc_error rest (fcPack_error hr), State.raised_eq_errReport]

end Sys2Proof.Machine
end

section
/-! Frame Control (40_frame_control.md R102, R108 to R113): the bits of its two octets, `SubDecode` by the entry of the
type's table, and the four operations on the FC group. -/

namespace Sys2Proof.Machine

open Sys2Proof.Spec

/-! ## The subtype mapper (R108) -/

/-- The entry of the table a type selects; the type `Unknown` selects none. -/
theorem tableEntry_of_getElem? {p : Params} {type : BitVec 2} {tab : List TableEntry} {nib : BitVec 4} {e : TableEntry}
    (htab : (type, tab) ∈ [((0 : BitVec 2), p.tabM), (1, p.tabC), (2, p.tabD)]) (he : tab[nib.toNat]? = some e) :
    tableEntry p (frameTypeOf type) nib = e := by
  simp only [List.mem_cons, Prod.mk.injEq, List.not_mem_nil, or_false] at htab
  obtain ⟨rfl, rfl⟩ | ⟨rfl, rfl⟩ | ⟨rfl, rfl⟩ := htab <;> simp [tableEntry, frameTypeOf, he]

theorem subDecode_named {p : Params} {type : BitVec 2} {nib : BitVec 4} {n : SubtypeName}
    (h : tableEntry p (frameTypeOf type) nib = .named n) : subDecode p type nib = type ++ nib := by
  simp [subDecode, h]

theorem subDecode_reserved {p : Params} {type : BitVec 2} {nib : BitVec 4}
    (h : tableEntry p (frameTypeOf type) nib = .reserved) : subDecode p type nib = subReserved := by
  simp [subDecode, h]

theorem subDecode_unhandled {p : Params} {type : BitVec 2} {nib : BitVec 4}
    (h : tableEntry p (frameTypeOf type) nib = .unhandled) : subDecode p type nib = subUnhandled := by
  simp [subDecode, h]

/-- The register code of a named subtype as a number (10_state.md R29). -/
theorem append_eq_ofNat (type : BitVec 2) (nib : BitVec 4) :
    (type ++ nib : BitVec (2 + 4)) = BitVec.ofNat 6 (16 * type.toNat + nib.toNat) := by
  revert type nib; decide

/-! ## The operands -/

theorem opaNibble_eq_ofNat (opa : BitVec 16) : opaNibble opa = BitVec.ofNat 4 (opa.toNat % 16) := by
  apply BitVec.eq_of_toNat_eq
  simp [opaNibble]

/-- The Frame Control in the two octets at the input cursor (R102). -/
theorem fcUnpack_memRead_icur (s : State) :
    fcUnpack s.params (s.memRead s.icur.toNat 2) =
      { ver := (inAt s 0).extractLsb' 0 2
        type := (inAt s 0).extractLsb' 2 2
        sub := subDecode s.params ((inAt s 0).extractLsb' 2 2) ((inAt s 0).extractLsb' 4 4)
        flags := inAt s 1 } := by
  have hfirst : byteAt (s.memRead s.icur.toNat 2) 0 = inAt s 0 := s.byteAt_memRead _ 2 0 (by decide)
  have hsecond : byteAt (s.memRead s.icur.toNat 2) 1 = inAt s 1 := s.byteAt_memRead _ 2 1 (by decide)
  rw [fcUnpack, hfirst, hsecond]

end Sys2Proof.Machine

namespace Sys2Proof.Proofs

open Sys2Proof.Machine Sys2Proof.Spec

/-- Settles O24: FCDEC is a decode operation of two bytes that puts what `FcUnpack` makes of them. -/
theorem fcdecDecodesFrameControl : Obligations.FcdecDecodesFrameControl := by
  refine ⟨decode_encode .fcdec rfl, fun s => ?_⟩
  have hrun : exec .fcdec s = decodeAtIcur 2 (fun b s => s.putFc (fcUnpack s.params b)) s := rfl
  exact decodes_of_decodeAtIcur hrun (congrArg s.putFc (fcUnpack_memRead_icur s))

/-- Settles O25: FCENC encodes the Frame Control and nothing after it. -/
theorem fcencEncodesFrameControl : Obligations.FcencEncodesFrameControl :=
  ⟨decode_encode .fcenc rfl, fun _ => encodesAfterFc_of_encodeAfterFc rfl⟩

/-- Settles O26: the nibble of `OPA` is its number modulo 16. -/
theorem stdecMapsNibbleToSubtype : Obligations.StdecMapsNibbleToSubtype := by
  refine ⟨decode_encode .stdec rfl, fun s => ?_⟩
  have hrun : exec .stdec s =
      .next (s.putFc { s.fc with sub := subDecode s.params s.fc.type (opaNibble s.opa) }).finished := rfl
  rw [hrun, opaNibble_eq_ofNat, State.finished_eq_okReport]
  rfl

/-- Settles O27: STENC ends as `SubEncode` does. -/
theorem stencMapsSubtypeToNibble : Obligations.StencMapsSubtypeToNibble := by
  refine ⟨decode_encode .stenc rfl, fun s => ⟨fun nib hnib => ?_, fun r hr => ?_⟩⟩
  · exact (execStenc_ok hnib).trans (congrArg _ (State.finished_eq_okReport _))
  · exact (execStenc_error hr).trans (congrArg _ (State.raised_eq_errReport _ _))

/-- Settles O28: the entry of the type's table decides, and for `Unknown` every entry is `Unhandled`. -/
theorem subDecodeFollowsTheTables : Obligations.SubDecodeFollowsTheTables := by
  intro p type nib
  refine ⟨?_, fun tab htab => ⟨fun n hn => ?_, fun hres => ?_, fun hunh => ?_⟩⟩
  · rintro rfl
    exact subDecode_unhandled rfl
  · exact (subDecode_named (tableEntry_of_getElem? htab hn)).trans (append_eq_ofNat type nib)
  · exact subDecode_reserved (tableEntry_of_getElem? htab hres)
  · exact subDecode_unhandled (tableEntry_of_getElem? htab hunh)

end Sys2Proof.Proofs
end

section
/-! The primitive codecs (41_primitive_codecs.md R131 to R142): what the octets at `ICUR` read as, the range checks of
the Sequence Control operations, and the address registers by number. -/

namespace Sys2Proof.Machine

open Sys2Proof.Spec

/-! ## The octets at the input cursor

Stated for any sequence that holds the octets from `i` places after `ICUR` on, so that they serve a slice as well. -/

theorem scUnpack_eq_scIn {b : List Byte} {s : State} {i : Nat} (h : ∀ j < 2, byteAt b j = inAt s (i + j)) :
    scUnpack b = scIn s i := by
  rw [scUnpack, h 0 (by decide), h 1 (by decide)]
  rfl

theorem le16_eq_leIn {b : List Byte} {s : State} {i : Nat} (h : ∀ j < 2, byteAt b j = inAt s (i + j)) :
    le16 b = leIn s i := by
  rw [le16, h 0 (by decide), h 1 (by decide)]
  rfl

theorem macOf_eq_macIn {b : List Byte} {s : State} {i : Nat} (h : ∀ j < 6, byteAt b j = inAt s (i + j)) :
    macOf b = macIn s i := by
  rw [macOf, h 0 (by decide), h 1 (by decide), h 2 (by decide), h 3 (by decide), h 4 (by decide), h 5 (by decide)]
  rfl

/-- What `MemRead` gives at `ICUR` holds the octets from the cursor itself on. -/
theorem State.byteAt_memRead_icur (s : State) {n : Nat} :
    ∀ j < n, byteAt (s.memRead s.icur.toNat n) j = inAt s (0 + j) := by
  intro j hj
  rw [Nat.zero_add]
  exact s.byteAt_memRead _ n j hj

/-! ## The details of the reports (60_exceptions.md R262) -/

theorem toNat_append_eq_add {m n : Nat} (x : BitVec m) (y : BitVec n) :
    (x ++ y).toNat = 2 ^ n * x.toNat + y.toNat := by
  rw [BitVec.toNat_append, ← Nat.shiftLeft_add_eq_or_of_lt y.isLt, Nat.shiftLeft_eq, Nat.mul_comm]

theorem seqOutOfRange_info (v : BitVec 16) : (seqOutOfRange v).info = BitVec.ofNat 32 v.toNat :=
  (BitVec.ofNat_toNat 32 v).symm

/-- Bit 16 of the detail is 1 for the fragment number (R136). -/
theorem fragOutOfRange_info (v : BitVec 16) : (fragOutOfRange v).info = BitVec.ofNat 32 (65536 + v.toNat) := by
  apply BitVec.eq_of_toNat_eq
  have happend : (fragOutOfRange v).info.toNat = 65536 + v.toNat := toNat_append_eq_add 1 v
  rw [happend, BitVec.toNat_ofNat, Nat.mod_eq_of_lt (by omega)]

/-- `IllegalCommand` reports the word of an operation, `{arg, opcode}` (30_encoding.md R87). -/
theorem raised_illegalCommand_encode (i : Instr) (s : State) :
    s.raised (illegalCommand (encode i)) =
      errReport 14 (BitVec.ofNat 32 (256 * i.arg.toNat + i.opcode.toNat)) s := by
  have hword : (encode i).toNat = 256 * i.arg.toNat + i.opcode.toNat := toNat_append_eq_add i.arg i.opcode
  rw [State.raised_eq_errReport, illegalCommand, ← BitVec.ofNat_toNat, hword]
  rfl

/-! ## Sequence Control, an equation per case -/

theorem opaSeq_eq_ofNat (v : BitVec 16) : opaSeq v = BitVec.ofNat 12 v.toNat := by
  apply BitVec.eq_of_toNat_eq
  simp [opaSeq]

theorem opbFrag_eq_ofNat (v : BitVec 16) : opbFrag v = BitVec.ofNat 4 v.toNat := by
  apply BitVec.eq_of_toNat_eq
  simp [opbFrag]

theorem execScnew_seqOutOfRange {s : State} (h : 4095 < s.opa) :
    execScnew s = .next (s.raised (seqOutOfRange s.opa)) := if_pos h

theorem execScnew_inRange {s : State} (h : ¬ 4095 < s.opa) :
    execScnew s = .next (s.putSc ⟨0, opaSeq s.opa⟩).finished := if_neg h

theorem execScset_seqOutOfRange {s : State} (h : 4095 < s.opa) :
    execScset s = .next (s.raised (seqOutOfRange s.opa)) := if_pos h

theorem execScset_fragOutOfRange {s : State} (hseq : ¬ 4095 < s.opa) (hfrag : 15 < s.opb) :
    execScset s = .next (s.raised (fragOutOfRange s.opb)) := (if_neg hseq).trans (if_pos hfrag)

theorem execScset_inRange {s : State} (hseq : ¬ 4095 < s.opa) (hfrag : ¬ 15 < s.opb) :
    execScset s = .next (s.putSc ⟨opbFrag s.opb, opaSeq s.opa⟩).finished := (if_neg hseq).trans (if_neg hfrag)

/-! ## The address registers by number (00_scope.md R11) -/

theorem decodes_macdec {k : BitVec 8} (hk : addrArgOk k = true) (s : State) :
    decodes (.macdec k) s 6 { s with hd := setAddrReg s.hd k (macIn s 0) } := by
  have hrun : exec (.macdec k) s = decodeAtIcur 6 (fun b s => s.putHd (setAddrReg s.hd k (macOf b))) s := if_pos hk
  refine decodes_of_decodeAtIcur hrun ?_
  rw [macOf_eq_macIn s.byteAt_memRead_icur, State.putHd]

theorem encodes_macenc {k : BitVec 8} (hk : addrArgOk k = true) (s : State) :
    encodes (.macenc k) s (macOut (addrReg s.hd k)) :=
  encodes_of_encodeAtOcur (if_pos hk)

end Sys2Proof.Machine

namespace Sys2Proof.Proofs

open Sys2Proof.Machine Sys2Proof.Spec

/-- Settles O32: SCDEC is a decode operation of two bytes that puts what `ScUnpack` makes of them. -/
theorem scdecUnpacks : Obligations.ScdecUnpacks := by
  refine ⟨decode_encode .scdec rfl, fun s => ?_⟩
  have hrun : exec .scdec s = decodeAtIcur 2 (fun b s => s.putSc (scUnpack b)) s := rfl
  exact decodes_of_decodeAtIcur hrun (congrArg s.putSc (scUnpack_eq_scIn s.byteAt_memRead_icur))

/-- Settles O33: SCENC is an encode operation of what `ScPack` gives. -/
theorem scencPacks : Obligations.ScencPacks :=
  ⟨decode_encode .scenc rfl, fun _ => encodes_of_encodeAtOcur rfl⟩

/-- Settles O34: the one check decides. -/
theorem scnewChecksTheRange : Obligations.ScnewChecksTheRange := by
  refine ⟨decode_encode .scnew rfl, fun s => ⟨fun hin => ?_, fun hout => ?_⟩⟩
  · rw [← opaSeq_eq_ofNat]
    exact execScnew_inRange (Nat.not_lt.2 hin)
  · rw [← seqOutOfRange_info]
    exact execScnew_seqOutOfRange hout

/-- Settles O35: the sequence number is checked first, then the fragment number. -/
theorem scsetChecksBothRanges : Obligations.ScsetChecksBothRanges := by
  refine ⟨decode_encode .scset rfl, fun s => ⟨fun hseq hfrag => ?_, fun hseq => ?_, fun hseq hfrag => ?_⟩⟩
  · rw [← opaSeq_eq_ofNat, ← opbFrag_eq_ofNat]
    exact execScset_inRange (Nat.not_lt.2 hseq) (Nat.not_lt.2 hfrag)
  · rw [← seqOutOfRange_info]
    exact execScset_seqOutOfRange hseq
  · rw [← fragOutOfRange_info]
    exact execScset_fragOutOfRange (Nat.not_lt.2 hseq) hfrag

/-- Settles O37: the decode operation of six bytes puts them into the register that `k` numbers. -/
theorem macdecCopiesSixOctets : Obligations.MacdecCopiesSixOctets := by
  refine ⟨fun k hk => decode_encode (.macdec k) ((addrArgOk_iff k).2 hk), fun s => ?_⟩
  refine ⟨decodes_macdec rfl s, decodes_macdec rfl s, decodes_macdec rfl s, decodes_macdec rfl s, fun k hk => ?_⟩
  have hrun : exec (.macdec k) s = .next (s.raised (illegalCommand (encode (.macdec k)))) :=
    if_neg (mt (addrArgOk_iff k).1 hk)
  rw [hrun, raised_illegalCommand_encode]
  rfl

/-- Settles O38: the encode operation writes the octets of the register that `k` numbers. -/
theorem macencCopiesSixOctets : Obligations.MacencCopiesSixOctets := by
  refine ⟨fun k hk => decode_encode (.macenc k) ((addrArgOk_iff k).2 hk), fun s => ?_⟩
  refine ⟨encodes_macenc rfl s, encodes_macenc rfl s, encodes_macenc rfl s, encodes_macenc rfl s, fun k hk => ?_⟩
  have hrun : exec (.macenc k) s = .next (s.raised (illegalCommand (encode (.macenc k)))) :=
    if_neg (mt (addrArgOk_iff k).1 hk)
  rw [hrun, raised_illegalCommand_encode]
  rfl

/-- Settles O39: CAPDEC is a decode operation of two bytes that puts their number. -/
theorem capdecReadsLittleEndian : Obligations.CapdecReadsLittleEndian := by
  refine ⟨decode_encode .capdec rfl, fun s => ?_⟩
  have hrun : exec .capdec s = decodeAtIcur 2 (fun b s => s.putCap (le16 b)) s := rfl
  exact decodes_of_decodeAtIcur hrun (congrArg s.putCap (le16_eq_leIn s.byteAt_memRead_icur))

/-- Settles O40: CAPENC is an encode operation of the two bytes of `CAP`. -/
theorem capencWritesLittleEndian : Obligations.CapencWritesLittleEndian :=
  ⟨decode_encode .capenc rfl, fun _ => encodes_of_encodeAtOcur rfl⟩

end Sys2Proof.Proofs
end

section
/-! Registries and tables as lists of pairs (00_scope.md R8): what a lookup finds. -/

namespace Sys2Proof.Machine

section
variable {α β : Type} [BEq α] [LawfulBEq α] {l : List (α × β)} {k : α} {v : β}

theorem mem_of_lookup_eq_some (h : l.lookup k = some v) : (k, v) ∈ l := by
  obtain ⟨before, after, rfl, -⟩ := List.lookup_eq_some_iff.1 h
  exact List.mem_append_cons_self

/-- Where no key occurs twice the lookup finds every pair. -/
theorem lookup_eq_some_iff_mem (hkeys : (l.map Prod.fst).Nodup) : l.lookup k = some v ↔ (k, v) ∈ l := by
  refine ⟨mem_of_lookup_eq_some, fun hmem => ?_⟩
  obtain ⟨before, after, rfl⟩ := List.append_of_mem hmem
  refine List.lookup_eq_some_iff.2 ⟨before, after, rfl, fun p hp => ?_⟩
  rw [List.map_append, List.nodup_append] at hkeys
  obtain ⟨-, -, hdistinct⟩ := hkeys
  exact bne_iff_ne.2 (hdistinct p.1 (List.mem_map_of_mem hp) k List.mem_cons_self).symm

end

end Sys2Proof.Machine
end

section
/-! SSID text (42_tlv_station_info.md R163 to R165): the decoder of R164 undoes the UTF-8 encoding of every scalar value
but NUL, one turn of its loop for each value. -/

namespace Sys2Proof.Machine

/-! ## The bytes of an encoding (R165) -/

theorem continuation_toNat (six : BitVec 6) : (continuation six).toNat = 0x80 + six.toNat :=
  toNat_append_eq_add (0b10 : BitVec 2) six

theorem continuation_low_bits (six : BitVec 6) : (continuation six &&& 0x3F).setWidth 21 = six.setWidth 21 := by
  revert six; decide

/-- The scalar bits from bit `k` on are those from bit `k + 6` on and six more. -/
theorem ushiftRight_eq_or (c : Scalar) (k : Nat) :
    (c >>> (k + 6)) <<< 6 ||| (c.extractLsb' k 6).setWidth 21 = c >>> k := by
  ext i hi
  by_cases h6 : i < 6
  · simp [h6]
  · simp [h6, show k + 6 + (i - 6) = k + i by omega]

/-! ## The bytes that begin an encoding (R164) -/

theorem leadByte_two {five : BitVec 5} (h : 2 ≤ five) :
    leadByte ((0b110 : BitVec 3) ++ five) = some (1, 0x80, 0xBF, five.setWidth 21) := by
  revert five; decide

theorem leadByte_three (four : BitVec 4) :
    leadByte ((0b1110 : BitVec 4) ++ four) =
      some (2, if four = 0 then 0xA0 else 0x80, if four = 0xD then 0x9F else 0xBF, four.setWidth 21) := by
  revert four; decide

theorem leadByte_four {three : BitVec 3} (h : three ≤ 4) :
    leadByte ((0b11110 : BitVec 5) ++ three) =
      some (3, if three = 0 then 0x90 else 0x80, if three = 4 then 0x8F else 0xBF, three.setWidth 21) := by
  revert three; decide

/-- A byte that leads a longer encoding is neither NUL nor ASCII. -/
theorem leadByte_of_ascii {b : Byte} (h : b ≤ 0x7F) : leadByte b = none := by
  revert b; decide

theorem decodeOne_of_leadByte {b lo hi : Byte} {need : Nat} {cp : Scalar} (h : leadByte b = some (need, lo, hi, cp))
    (nul : Scalar) (rest : List Byte) : decodeOne nul b rest = takeContinuations need lo hi cp rest := by
  have hascii : ¬ b ≤ 0x7F := fun hb => by simp [leadByte_of_ascii hb] at h
  have hnul : b ≠ 0 := fun hb => hascii (by simp [hb])
  rw [decodeOne, if_neg hnul, if_neg hascii, h]

/-! ## Continuation bytes (R164) -/

/-- A continuation byte within the bounds adds the next six bits of the scalar value. -/
theorem takeContinuations_continuation {need k : Nat} {lo hi : Byte} {c : Scalar} {rest : List Byte}
    (hlo : lo ≤ continuation (c.extractLsb' k 6)) (hhi : continuation (c.extractLsb' k 6) ≤ hi) :
    takeContinuations (need + 1) lo hi (c >>> (k + 6)) (continuation (c.extractLsb' k 6) :: rest) =
      takeContinuations need 0x80 0xBF (c >>> k) rest := by
  have hin : ¬ (continuation (c.extractLsb' k 6) < lo ∨ hi < continuation (c.extractLsb' k 6)) :=
    not_or.2 ⟨BitVec.not_lt.2 hlo, BitVec.not_lt.2 hhi⟩
  rw [takeContinuations, if_neg hin, continuation_low_bits, ushiftRight_eq_or]

theorem continuation_bounds (six : BitVec 6) : (0x80 : Byte) ≤ continuation six ∧ continuation six ≤ 0xBF := by
  revert six; decide

/-! ## The scalar bits as numbers -/

/-- The bits of the lead byte are the highest ones of the scalar value. -/
theorem setWidth_extractLsb'_eq_ushiftRight {c : Scalar} {k n : Nat} (h : c.toNat < 2 ^ (k + n)) :
    (c.extractLsb' k n).setWidth 21 = c >>> k := by
  have hhigh : c.toNat >>> k < 2 ^ n := by
    rw [Nat.shiftRight_eq_div_pow]
    exact Nat.div_lt_of_lt_mul (by rwa [← Nat.pow_add])
  apply BitVec.eq_of_toNat_eq
  rw [BitVec.toNat_setWidth, BitVec.extractLsb'_toNat, Nat.mod_eq_of_lt hhigh, BitVec.toNat_ushiftRight]
  exact Nat.mod_eq_of_lt (lt_of_le_of_lt (Nat.shiftRight_le _ _) c.isLt)

section
variable {c : Scalar} {k n : Nat} {v : BitVec n} {b : Byte}

theorem toNat_extractLsb'_eq_mod : (c.extractLsb' k n).toNat = c.toNat / 2 ^ k % 2 ^ n := by
  rw [BitVec.extractLsb'_toNat, Nat.shiftRight_eq_div_pow]

theorem extractLsb'_eq_iff : c.extractLsb' k n = v ↔ c.toNat / 2 ^ k % 2 ^ n = v.toNat := by
  rw [← toNat_extractLsb'_eq_mod, BitVec.toNat_inj]

theorem extractLsb'_le_iff : c.extractLsb' k n ≤ v ↔ c.toNat / 2 ^ k % 2 ^ n ≤ v.toNat := by
  rw [BitVec.le_def, toNat_extractLsb'_eq_mod]

theorem le_extractLsb'_iff : v ≤ c.extractLsb' k n ↔ v.toNat ≤ c.toNat / 2 ^ k % 2 ^ n := by
  rw [BitVec.le_def, toNat_extractLsb'_eq_mod]

theorem continuation_extractLsb'_le_iff :
    continuation (c.extractLsb' k 6) ≤ b ↔ 0x80 + c.toNat / 2 ^ k % 2 ^ 6 ≤ b.toNat := by
  rw [BitVec.le_def, continuation_toNat, toNat_extractLsb'_eq_mod]

theorem le_continuation_extractLsb'_iff :
    b ≤ continuation (c.extractLsb' k 6) ↔ b.toNat ≤ 0x80 + c.toNat / 2 ^ k % 2 ^ 6 := by
  rw [BitVec.le_def, continuation_toNat, toNat_extractLsb'_eq_mod]

end

/-! ## One turn of the loop undoes one encoding -/

/-- One turn on these bytes and any others gives the scalar value and leaves the others. -/
def DecodesAs (bytes : List Byte) (c : Scalar) : Prop :=
  ∃ b tail, bytes = b :: tail ∧ ∀ nul rest, decodeOne nul b (tail ++ rest) = (c, rest)

theorem decodesAs_one {c : Scalar} (hnul : c ≠ 0) (h : c.toNat ≤ 0x7F) : DecodesAs [c.extractLsb' 0 8] c := by
  have hword : (c.extractLsb' 0 8).setWidth 21 = c := setWidth_extractLsb'_eq_ushiftRight (k := 0) (by omega)
  have hnul' : c.extractLsb' 0 8 ≠ 0 := fun h0 => hnul (by rw [← hword, h0]; rfl)
  have hascii : c.extractLsb' 0 8 ≤ 0x7F := extractLsb'_le_iff.2 (show c.toNat / 2 ^ 0 % 2 ^ 8 ≤ 0x7F by omega)
  refine ⟨_, [], rfl, fun nul rest => ?_⟩
  rw [decodeOne, if_neg hnul', if_pos hascii, hword]
  rfl

theorem takeContinuations_one {c : Scalar} {rest : List Byte} :
    takeContinuations 1 0x80 0xBF (c >>> 6) (continuation (c.extractLsb' 0 6) :: rest) = (c, rest) :=
  takeContinuations_continuation (k := 0) (continuation_bounds _).1 (continuation_bounds _).2

theorem takeContinuations_two {c : Scalar} {lo hi : Byte} {rest : List Byte}
    (hlo : lo ≤ continuation (c.extractLsb' 6 6)) (hhi : continuation (c.extractLsb' 6 6) ≤ hi) :
    takeContinuations 2 lo hi (c >>> 12)
      (continuation (c.extractLsb' 6 6) :: continuation (c.extractLsb' 0 6) :: rest) = (c, rest) :=
  (takeContinuations_continuation hlo hhi).trans takeContinuations_one

theorem takeContinuations_three {c : Scalar} {lo hi : Byte} {rest : List Byte}
    (hlo : lo ≤ continuation (c.extractLsb' 12 6)) (hhi : continuation (c.extractLsb' 12 6) ≤ hi) :
    takeContinuations 3 lo hi (c >>> 18)
      (continuation (c.extractLsb' 12 6) :: continuation (c.extractLsb' 6 6) :: continuation (c.extractLsb' 0 6) :: rest) =
      (c, rest) :=
  (takeContinuations_continuation hlo hhi).trans
    (takeContinuations_two (continuation_bounds _).1 (continuation_bounds _).2)

theorem decodesAs_two {c : Scalar} (hlo : 0x80 ≤ c.toNat) (hhi : c.toNat ≤ 0x7FF) :
    DecodesAs [(0b110 : BitVec 3) ++ c.extractLsb' 6 5, continuation (c.extractLsb' 0 6)] c := by
  have hfive : 2 ≤ c.extractLsb' 6 5 := le_extractLsb'_iff.2 (show 2 ≤ c.toNat / 2 ^ 6 % 2 ^ 5 by omega)
  refine ⟨_, _, rfl, fun nul rest => ?_⟩
  rw [decodeOne_of_leadByte (leadByte_two hfive), setWidth_extractLsb'_eq_ushiftRight (by omega)]
  exact takeContinuations_one

/-- The narrower bounds after 0xE0 and 0xED exclude shorter encodings and surrogates. -/
theorem decodesAs_three {c : Scalar} (hscalar : isScalarValue c) (hlo : 0x800 ≤ c.toNat) (hhi : c.toNat ≤ 0xFFFF) :
    DecodesAs [(0b1110 : BitVec 4) ++ c.extractLsb' 12 4, continuation (c.extractLsb' 6 6),
      continuation (c.extractLsb' 0 6)] c := by
  have hsurrogate : c.toNat ≤ 0xD7FF ∨ 0xE000 ≤ c.toNat := hscalar.imp_right And.left
  refine ⟨_, _, rfl, fun nul rest => ?_⟩
  rw [decodeOne_of_leadByte (leadByte_three _), setWidth_extractLsb'_eq_ushiftRight (by omega)]
  refine takeContinuations_two ?_ ?_ <;> split
  · next hlead =>
    have hfour : c.toNat / 2 ^ 12 % 2 ^ 4 = 0 := extractLsb'_eq_iff.1 hlead
    exact le_continuation_extractLsb'_iff.2 (show 0xA0 ≤ 0x80 + c.toNat / 2 ^ 6 % 2 ^ 6 by omega)
  · exact (continuation_bounds _).1
  · next hlead =>
    have hfour : c.toNat / 2 ^ 12 % 2 ^ 4 = 0xD := extractLsb'_eq_iff.1 hlead
    exact continuation_extractLsb'_le_iff.2 (show 0x80 + c.toNat / 2 ^ 6 % 2 ^ 6 ≤ 0x9F by omega)
  · exact (continuation_bounds _).2

/-- The narrower bounds after 0xF0 and 0xF4 exclude shorter encodings and values beyond U+10FFFF. -/
theorem decodesAs_four {c : Scalar} (hlo : 0x10000 ≤ c.toNat) (hhi : c.toNat ≤ 0x10FFFF) :
    DecodesAs [(0b11110 : BitVec 5) ++ c.extractLsb' 18 3, continuation (c.extractLsb' 12 6),
      continuation (c.extractLsb' 6 6), continuation (c.extractLsb' 0 6)] c := by
  have hmax : c.extractLsb' 18 3 ≤ 4 := extractLsb'_le_iff.2 (show c.toNat / 2 ^ 18 % 2 ^ 3 ≤ 4 by omega)
  refine ⟨_, _, rfl, fun nul rest => ?_⟩
  rw [decodeOne_of_leadByte (leadByte_four hmax), setWidth_extractLsb'_eq_ushiftRight c.isLt]
  refine takeContinuations_three ?_ ?_ <;> split
  · next hlead =>
    have hthree : c.toNat / 2 ^ 18 % 2 ^ 3 = 0 := extractLsb'_eq_iff.1 hlead
    exact le_continuation_extractLsb'_iff.2 (show 0x90 ≤ 0x80 + c.toNat / 2 ^ 12 % 2 ^ 6 by omega)
  · exact (continuation_bounds _).1
  · next hlead =>
    have hthree : c.toNat / 2 ^ 18 % 2 ^ 3 = 4 := extractLsb'_eq_iff.1 hlead
    exact continuation_extractLsb'_le_iff.2 (show 0x80 + c.toNat / 2 ^ 12 % 2 ^ 6 ≤ 0x8F by omega)
  · exact (continuation_bounds _).2

theorem utf8One_decodesAs {c : Scalar} (hscalar : isScalarValue c) (hnul : c ≠ 0) : DecodesAs (utf8One c) c := by
  have hmax : c.toNat ≤ 0x10FFFF := by
    obtain h | ⟨-, h⟩ := hscalar
    · exact le_trans (BitVec.le_def.1 h) (by decide)
    · exact h
  unfold utf8One
  split
  · next h1 => exact decodesAs_one hnul h1
  · next h1 =>
    split
    · next h2 => exact decodesAs_two (Nat.not_le.1 h1) h2
    · next h2 =>
      split
      · next h3 => exact decodesAs_three hscalar (Nat.not_le.1 h2) h3
      · next h3 => exact decodesAs_four (Nat.not_le.1 h3) hmax

/-! ## The whole text -/

theorem decodeTurns_utf8One_append {c : Scalar} (h : DecodesAs (utf8One c) c) (nul : Scalar) (turns : Nat)
    (rest : List Byte) : decodeTurns nul (turns + 1) (utf8One c ++ rest) = c :: decodeTurns nul turns rest := by
  obtain ⟨b, tail, hbytes, hone⟩ := h
  rw [hbytes, List.cons_append, decodeTurns, hone]

theorem DecodesAs.length_pos {bytes : List Byte} {c : Scalar} (h : DecodesAs bytes c) : 0 < bytes.length := by
  obtain ⟨b, tail, rfl, -⟩ := h
  exact Nat.succ_pos _

/-- As many turns as there are bytes suffice, as every encoding has a byte. -/
theorem decodeTurns_utf8 (nul : Scalar) (text : List Scalar) (htext : ∀ c ∈ text, isScalarValue c ∧ c ≠ 0)
    (turns : Nat) (hturns : (utf8 text).length ≤ turns) : decodeTurns nul turns (utf8 text) = text := by
  induction text generalizing turns with
  | nil => cases turns <;> rfl
  | cons c text ih =>
    rw [List.forall_mem_cons] at htext
    obtain ⟨⟨hscalar, hnul⟩, htext⟩ := htext
    have hone := utf8One_decodesAs hscalar hnul
    have hutf8 : utf8 (c :: text) = utf8One c ++ utf8 text := rfl
    rw [hutf8, List.length_append] at hturns
    have hpos := hone.length_pos
    obtain ⟨turns, rfl⟩ : ∃ n, turns = n + 1 := Nat.exists_eq_succ_of_ne_zero (by omega)
    rw [hutf8, decodeTurns_utf8One_append hone, ih htext turns (by omega)]

theorem defaultTextDecode_utf8 (nul : Scalar) {text : List Scalar} (htext : ∀ c ∈ text, isScalarValue c ∧ c ≠ 0) :
    defaultTextDecode nul (utf8 text) = text :=
  decodeTurns_utf8 nul text htext _ le_rfl

/-- An admissible parameter lists no other text for a payload that the default decoder and `Utf8` give back
(R163 constraint 2). -/
theorem textDecode_eq_default {p : Params} (hp : p.TextOk) {payload : List Byte}
    (h : utf8 (defaultTextDecode p.nulPlaceholder payload) = payload) :
    textDecode p payload = defaultTextDecode p.nulPlaceholder payload := by
  obtain ⟨-, -, hoverrides⟩ := hp
  unfold textDecode
  split
  · next t hlookup =>
    obtain ⟨-, -, hwellFormed, -⟩ := hoverrides _ (mem_of_lookup_eq_some hlookup)
    exact hwellFormed h
  · rfl

end Sys2Proof.Machine

namespace Sys2Proof.Proofs

open Sys2Proof.Machine

/-- Settles O48: the default decoder undoes each scalar value's encoding in one turn, so well-formed UTF-8 without NUL
is where an admissible decoder agrees with it. -/
theorem textDecodeInvertsUtf8 : Obligations.TextDecodeInvertsUtf8 := by
  intro p text hp htext _
  have hdefault := defaultTextDecode_utf8 p.nulPlaceholder htext
  rw [textDecode_eq_default hp (by rw [hdefault]), hdefault]

end Sys2Proof.Proofs
end

section
/-! Station Info (42_tlv_station_info.md R160 to R170): the elements on the wire, what TLVDEC's loop makes of whole
elements, and TLVENC's checks in their order. -/

namespace Sys2Proof.Machine

open Sys2Proof.Spec

/-! ## Elements on the wire (R160) -/

@[simp] theorem flat_cons (e : Element) (es : List Element) : flat (e :: es) = elementBytes e ++ flat es := rfl

theorem length_add_two_le_flat {e : Element} {es : List Element} (h : e ∈ es) :
    2 + e.pay.length ≤ (flat es).length := by
  obtain ⟨before, after, rfl⟩ := List.append_of_mem h
  simp [flat, wire]
  omega

theorem length_le_flat (es : List Element) : es.length ≤ (flat es).length := by
  induction es with
  | nil => exact Nat.le_refl 0
  | cons e es ih => simp; omega

/-! ## What the elements give (R166, R167) -/

theorem lastPayload_concat (tag : BitVec 8) (es : List Element) (e : Element) :
    lastPayload tag (es ++ [e]) = if e.tag = tag then some e.pay else lastPayload tag es := by
  by_cases h : e.tag = tag
  · simp [lastPayload, h]
  · simp [lastPayload, h]

/-- One more element goes where the loop puts it. -/
theorem stationInfoOf_concat (p : Params) (es : List Element) (e : Element) :
    stationInfoOf p (es ++ [e]) = addElement (ssidText p) (stationInfoOf p es) e.tag e.pay := by
  by_cases h0 : e.tag = 0#8
  · simp [stationInfoOf, addElement, lastPayload_concat, h0, ssidText]
  · by_cases h1 : e.tag = 1#8
    · simp [stationInfoOf, addElement, lastPayload_concat, h1]
    · simp [stationInfoOf, addElement, lastPayload_concat, h0, h1]

theorem foldl_addElement (p : Params) (es : List Element) :
    es.foldl (fun si e => addElement (ssidText p) si e.tag e.pay) emptyStationInfo = stationInfoOf p es := by
  induction es using List.reverseRecOn with
  | nil => rfl
  | append_singleton es e ih => rw [List.foldl_concat, ih, stationInfoOf_concat]

/-! ## TLVDEC's loop (R166) -/

/-- The loop runs through whole elements where the last of them, with what follows, is no short tail: then none of them
is one. -/
theorem parseElements_flat (tailMin : Nat) (text : List Byte → List Byte) (turns : Nat) (es : List Element)
    (rest : List Byte) (si : StationInfo) (hlen : ∀ e ∈ es, e.pay.length ≤ 255)
    (hlast : ∀ e, es.getLast? = some e → tailMin ≤ 2 + e.pay.length + rest.length) :
    parseElements tailMin text (es.length + turns) (flat es ++ rest) si =
      parseElements tailMin text turns rest (es.foldl (fun si e => addElement text si e.tag e.pay) si) := by
  induction es generalizing si with
  | nil => rw [List.length_nil, Nat.zero_add]; rfl
  | cons e es ih =>
    rw [List.forall_mem_cons] at hlen
    obtain ⟨hhead, hlen⟩ := hlen
    have htail : tailMin ≤ 2 + e.pay.length + (flat es ++ rest).length := by
      have hmem := length_add_two_le_flat (List.getLast_mem (List.cons_ne_nil e es))
      have hmin := hlast _ (List.getLast?_eq_some_getLast (List.cons_ne_nil e es))
      simp at hmem ⊢
      omega
    have hlast' : ∀ d, es.getLast? = some d → tailMin ≤ 2 + d.pay.length + rest.length := fun d hd =>
      hlast d (by rw [List.getLast?_cons, hd]; rfl)
    rw [List.length_cons, Nat.add_right_comm, flat_cons, List.append_assoc,
      parseElements_element tailMin text _ e _ si hhead htail, ih _ hlen hlast', List.foldl_cons]

theorem memRead_icur_avail (s : State) : s.memRead s.icur.toNat s.avail = input s := rfl

theorem input_length (s : State) : (input s).length = s.avail := by simp [input, State.avail]

/-- The loop on a slice that begins with whole elements; it has at least one turn for each and those that are left over
serve the rest. -/
theorem parsedSlice_of_input {s : State} {es : List Element} {rest : List Byte} (hinput : input s = flat es ++ rest)
    (hlen : ∀ e ∈ es, e.pay.length ≤ 255)
    (hlast : ∀ e, es.getLast? = some e → s.params.tlvTailMin ≤ 2 + e.pay.length + rest.length) :
    ∃ turns, rest.length ≤ turns ∧ s.parsedSlice =
      parseElements s.params.tlvTailMin (ssidText s.params) turns rest (stationInfoOf s.params es) := by
  have havail : s.avail = (flat es).length + rest.length := by rw [← input_length, hinput, List.length_append]
  have hcount : es.length ≤ (flat es).length := length_le_flat es
  have hturns : s.avail = es.length + (s.avail - es.length) := by omega
  refine ⟨s.avail - es.length, by omega, ?_⟩
  rw [State.parsedSlice, memRead_icur_avail, hinput, ← foldl_addElement, ← parseElements_flat _ _ _ _ _ _ hlen hlast,
    ← hturns]

theorem parsedSlice_of_parsesAs {s : State} {es : List Element} {tail : List Byte} (h : parsesAs s es tail) :
    s.parsedSlice = .ok (stationInfoOf s.params es, tail) := by
  obtain ⟨hinput, hlen, hshort, hlast⟩ := h
  obtain ⟨turns, -, hparsed⟩ := parsedSlice_of_input hinput hlen hlast
  rw [hparsed, parseElements_tail _ _ _ _ _ hshort]

theorem parsedSlice_of_truncated {s : State} {es : List Element} {tag n : Byte} {part : List Byte}
    (hinput : input s = flat es ++ tag :: n :: part) (hlen : ∀ e ∈ es, e.pay.length ≤ 255)
    (hcut : part.length < n.toNat) (htail : s.params.tlvTailMin ≤ 2 + part.length) :
    s.parsedSlice = .error (n.toNat - part.length) := by
  have hlast : ∀ e, es.getLast? = some e →
      s.params.tlvTailMin ≤ 2 + e.pay.length + (tag :: n :: part).length := fun e _ => by simp; omega
  obtain ⟨turns, hturns, hparsed⟩ := parsedSlice_of_input hinput hlen hlast
  obtain ⟨turns, rfl⟩ : ∃ k, turns = k + 1 := Nat.exists_eq_succ_of_ne_zero (by simp at hturns; omega)
  rw [hparsed, parseElements_truncated _ _ _ _ _ _ _ hcut htail]

/-! ## TLVENC's elements and their lengths (R170) -/

theorem emittedElements_eq_emission (si : StationInfo) : emittedElements si = emission si := by
  by_cases h : si.rates = []
  · simp [emittedElements, emission, h]
  · simp [emittedElements, emission, h, List.length_pos_iff]

theorem firstTooLong_eq_none {es : List Element} (i : Nat) (h : ∀ e ∈ es, e.pay.length ≤ 255) :
    firstTooLong i es = none := by
  induction es generalizing i with
  | nil => rfl
  | cons e es ih =>
    rw [List.forall_mem_cons] at h
    obtain ⟨hhead, hrest⟩ := h
    rw [firstTooLong, if_neg (Nat.not_lt.2 hhead), ih _ hrest]

theorem firstTooLong_append_cons {before after : List Element} {e : Element} (i : Nat)
    (hbefore : ∀ d ∈ before, d.pay.length ≤ 255) (he : 255 < e.pay.length) :
    firstTooLong i (before ++ e :: after) = some (i + before.length, e.pay.length) := by
  induction before generalizing i with
  | nil => exact if_pos he
  | cons d before ih =>
    rw [List.forall_mem_cons] at hbefore
    obtain ⟨hhead, hrest⟩ := hbefore
    rw [List.cons_append, firstTooLong, if_neg (Nat.not_lt.2 hhead), ih _ hrest, List.length_cons]
    congr 2
    omega

end Sys2Proof.Machine

namespace Sys2Proof.Proofs

open Sys2Proof.Machine Sys2Proof.Spec

/-- Settles O41: the loop parses exactly the elements and stops at the tail. -/
theorem tlvdecParsesElements : Obligations.TlvdecParsesElements := by
  intro s es tail h
  have hconsumed : s.avail - tail.length = (flat es).length := by
    obtain ⟨hinput, -⟩ := h
    rw [← input_length, hinput, List.length_append, Nat.add_sub_cancel]
  have hrun : exec .tlvdec s = _ := execTlvdec_ok (parsedSlice_of_parsesAs h)
  rw [hrun, hconsumed, State.finished_eq_okReport]
  rfl

/-- Settles O42: the loop reaches the element that is cut short and ends there. -/
theorem tlvdecReportsTruncation : Obligations.TlvdecReportsTruncation := by
  intro s es tag n part hinput hlen hcut htail
  exact execTlvdec_error (parsedSlice_of_truncated hinput hlen hcut htail)

/-- Settles O44: the lengths are checked first, then the room. -/
theorem tlvencEmitsElementsInOrder : Obligations.TlvencEmitsElementsInOrder := by
  refine ⟨decode_encode .tlvenc rfl, fun s => ?_⟩
  simp only [← emittedElements_eq_emission]
  refine ⟨fun hlen hfits => ?_, fun hlen hfull => ?_, fun before after e hsplit hbefore he => ?_⟩
  · exact ⟨_, execTlvenc_fits (firstTooLong_eq_none 0 hlen) rfl (Nat.not_lt.2 hfits),
      (s.putRes _).emit_wroteAtCursor _⟩
  · exact execTlvenc_full (firstTooLong_eq_none 0 hlen) rfl hfull
  · have hfirst : firstTooLong 0 (emittedElements s.si) = some (before.length, e.pay.length) := by
      rw [hsplit, firstTooLong_append_cons 0 hbefore he, Nat.zero_add]
    exact execTlvenc_tooLong hfirst

end Sys2Proof.Proofs
end

section
/-! The rate converter (42_tlv_station_info.md R174, R176, R177): lookups in a table in which no octet and no rate
occurs twice. -/

namespace Sys2Proof.Machine

open Sys2Proof.Spec

theorem rateOfOctet_eq_some_iff {p : Params} (hp : p.RatesOk) (o : BitVec 8) (r : BitVec 16) :
    rateOfOctet p.rateTable o = some r ↔ (o, r) ∈ p.rateTable := by
  obtain ⟨hoctets, -⟩ := hp
  exact lookup_eq_some_iff_mem hoctets

theorem octetOfRate_eq_some_iff {p : Params} (hp : p.RatesOk) (o : BitVec 8) (r : BitVec 16) :
    octetOfRate p.rateTable r = some o ↔ (o, r) ∈ p.rateTable := by
  obtain ⟨-, hrates, -⟩ := hp
  have hkeys : ((p.rateTable.map fun e => (e.2, e.1)).map Prod.fst).Nodup := by rwa [List.map_map]
  rw [octetOfRate, lookup_eq_some_iff_mem hkeys]
  simp

theorem opaOctet_setWidth (o : BitVec 8) : opaOctet (o.setWidth 16) = o := by
  apply BitVec.eq_of_toNat_eq
  simpa [opaOctet] using o.isLt

/-- The detail of `RateUnknown` is the octet as a number. -/
theorem opaOctet_setWidth_eq_ofNat (opa : BitVec 16) : (opaOctet opa).setWidth 32 = BitVec.ofNat 32 (opa.toNat % 256) := by
  apply BitVec.eq_of_toNat_eq
  simp [opaOctet]

theorem exec_ratek_of_mem {s : State} (hp : s.params.RatesOk) {r : BitVec 16}
    (h : (opaOctet s.opa, r) ∈ s.params.rateTable) :
    exec .ratek s = .next (okReport { s with res := r.setWidth 32 }) :=
  execRatek_some ((rateOfOctet_eq_some_iff hp _ r).2 h)

theorem exec_krate_of_mem {s : State} (hp : s.params.RatesOk) {o : BitVec 8} (h : (o, s.opa) ∈ s.params.rateTable) :
    exec .krate s = .next (okReport { s with res := o.setWidth 32 }) :=
  execKrate_some ((octetOfRate_eq_some_iff hp o _).2 h)

end Sys2Proof.Machine

namespace Sys2Proof.Proofs

open Sys2Proof.Machine Sys2Proof.Spec

/-- Settles O49: the lookup finds exactly the pairs of the table. -/
theorem ratekConverts : Obligations.RatekConverts := by
  refine ⟨decode_encode .ratek rfl, fun s hp => ⟨fun r hr => exec_ratek_of_mem hp hr, fun hnone => ?_⟩⟩
  have hlookup : rateOfOctet s.params.rateTable (opaOctet s.opa) = none :=
    Option.eq_none_iff_forall_ne_some.2 fun r hr => hnone r ((rateOfOctet_eq_some_iff hp _ r).1 hr)
  rw [← opaOctet_setWidth_eq_ofNat]
  exact execRatek_none hlookup

/-- Settles O50: the lookup by rate finds exactly the pairs of the table, so each pair is found from both sides. -/
theorem krateConverts : Obligations.KrateConverts := by
  refine ⟨decode_encode .krate rfl, fun s hp => ⟨fun o ho => exec_krate_of_mem hp ho, fun hnone => ?_,
    fun o r hpair => ⟨?_, exec_krate_of_mem (s := { s with opa := r }) hp hpair⟩⟩⟩
  · have hlookup : octetOfRate s.params.rateTable s.opa = none :=
      Option.eq_none_iff_forall_ne_some.2 fun o ho => hnone o ((octetOfRate_eq_some_iff hp o _).1 ho)
    rw [BitVec.ofNat_toNat]
    exact execKrate_none hlookup
  · exact exec_ratek_of_mem (s := { s with opa := o.setWidth 16 }) hp (by rwa [opaOctet_setWidth])

end Sys2Proof.Proofs
end

section
/-! The header assemblers (43_header_assemblers.md R200 to R208): the fields of a header that stands at `ICUR`, the two
presence bits, and the five operations on the HD group. -/

namespace Sys2Proof.Machine

open Sys2Proof.Spec

/-! ## The fields of a header at the input cursor (R200, R201) -/

/-- A slice of what `MemRead` gives at `ICUR` holds the octets from the slice's first place on. -/
theorem State.byteAt_slice_memRead_icur (s : State) {n lo width : Nat} (h : lo + width ≤ n) :
    ∀ j < width, byteAt (slice (s.memRead s.icur.toNat n) lo (lo + width)) j = inAt s (lo + j) := by
  intro j hj
  rw [byteAt_slice _ lo (lo + width) j (by omega)]
  exact s.byteAt_memRead _ n (lo + j) (by omega)

theorem le16_slice_memRead_icur (s : State) {n : Nat} (lo : Nat) (h : lo + 2 ≤ n) :
    le16 (slice (s.memRead s.icur.toNat n) lo (lo + 2)) = leIn s lo :=
  le16_eq_leIn (s.byteAt_slice_memRead_icur h)

theorem macOf_slice_memRead_icur (s : State) {n : Nat} (lo : Nat) (h : lo + 6 ≤ n) :
    macOf (slice (s.memRead s.icur.toNat n) lo (lo + 6)) = macIn s lo :=
  macOf_eq_macIn (s.byteAt_slice_memRead_icur h)

theorem scUnpack_slice_memRead_icur (s : State) {n : Nat} (lo : Nat) (h : lo + 2 ≤ n) :
    scUnpack (slice (s.memRead s.icur.toNat n) lo (lo + 2)) = scIn s lo :=
  scUnpack_eq_scIn (s.byteAt_slice_memRead_icur h)

theorem commonFields_memRead_icur (s : State) (hd : Header) {n : Nat} (h : 22 ≤ n) :
    commonFields (s.memRead s.icur.toNat n) hd =
      { hd with dur := leIn s 0, a1 := macIn s 2, a2 := macIn s 8, a3 := macIn s 14 } := by
  rw [commonFields, le16_slice_memRead_icur s 0 (by omega), macOf_slice_memRead_icur s 2 (by omega),
    macOf_slice_memRead_icur s 8 (by omega), macOf_slice_memRead_icur s 14 (by omega)]

/-- The bytes read reach over Address4 and over the QoS control wherever their presence bits are 1 (R201). -/
theorem optionalFields_memRead_icur (s : State) (hd : Header) {n : Nat} (h : 22 + optionalLength hd ≤ n) :
    optionalFields (s.memRead s.icur.toNat n) hd =
      { hd with
        a4 := if hd.a4p = 1 then macIn s 22 else hd.a4
        qos := if hd.qosp = 1 then leIn s (22 + 6 * hd.a4p.toNat) else hd.qos } := by
  rw [optionalLength] at h
  have ha4 (hp : hd.a4p = 1) : macOf (slice (s.memRead s.icur.toNat n) 22 28) = macIn s 22 := by
    have hone : hd.a4p.toNat = 1 := congrArg BitVec.toNat hp
    exact macOf_slice_memRead_icur s 22 (by omega)
  have hqos (hp : hd.qosp = 1) :
      le16 (slice (s.memRead s.icur.toNat n) (22 + 6 * hd.a4p.toNat) (22 + 6 * hd.a4p.toNat + 2)) =
        leIn s (22 + 6 * hd.a4p.toNat) := by
    have hone : hd.qosp.toNat = 1 := congrArg BitVec.toNat hp
    exact le16_slice_memRead_icur s _ (by omega)
  rw [optionalFields, ite_congr rfl ha4 fun _ => rfl, ite_congr rfl hqos fun _ => rfl]

/-! ## The presence bits (R203, R206) -/

theorem frameTypeOf_data_iff (t : BitVec 2) : frameTypeOf t = .data ↔ t = 2 := by
  revert t; decide

theorem extractLsb'_width_one {w : Nat} (v : BitVec w) (i : Nat) : v.extractLsb' i 1 = BitVec.ofBool (v.getLsbD i) := by
  apply BitVec.eq_of_getLsbD_eq
  simp

theorem ofBool_and_eq_ite (x y : Bool) :
    BitVec.ofBool x &&& BitVec.ofBool y = if x = true ∧ y = true then 1 else 0 := by
  cases x <;> cases y <;> rfl

theorem a4pOf_eq_ite (fc : FrameControl) :
    a4pOf fc = if fc.flags.getLsbD 0 = true ∧ fc.flags.getLsbD 1 = true then 1 else 0 := by
  rw [a4pOf, extractLsb'_width_one, extractLsb'_width_one, ofBool_and_eq_ite]

theorem qospOf_of_not_data {p : Params} {fc : FrameControl} (h : frameTypeOf fc.type ≠ .data) : qospOf p fc = 0 := by
  unfold qospOf
  split <;> simp_all

theorem qospOf_of_unnamed {p : Params} {fc : FrameControl} (h : nameOfCode p fc.sub = none) : qospOf p fc = 0 := by
  unfold qospOf
  split <;> simp_all

theorem qospOf_of_named_data {p : Params} {fc : FrameControl} {n : SubtypeName} (htype : frameTypeOf fc.type = .data)
    (hname : nameOfCode p fc.sub = some n) : qospOf p fc = if n ∈ p.qosData then 1 else 0 := by
  simp only [qospOf, htype, hname]

theorem qospOf_eq_ite (p : Params) (fc : FrameControl) :
    qospOf p fc = if fc.type = 2 ∧ ∃ n ∈ p.qosData, nameOfCode p fc.sub = some n then 1 else 0 := by
  simp only [← frameTypeOf_data_iff]
  by_cases htype : frameTypeOf fc.type = .data
  · cases hname : nameOfCode p fc.sub with
    | none => simp [qospOf_of_unnamed hname]
    | some n => simp [qospOf_of_named_data htype hname, htype]
  · simp [qospOf_of_not_data htype, htype]

end Sys2Proof.Machine

namespace Sys2Proof.Proofs

open Sys2Proof.Machine Sys2Proof.Spec

/-- Settles O51: MHDEC is a decode operation of the 22 common bytes that also clears the presence bits. -/
theorem mhdecReadsTheHeader : Obligations.MhdecReadsTheHeader := by
  refine ⟨decode_encode .mhdec rfl, fun s => ?_⟩
  have hrun : exec .mhdec s = decodeAtIcur 22 (fun b s =>
      (s.putHd { commonFields b s.hd with a4p := 0, qosp := 0 }).putSc (scUnpack (slice b 20 22))) s := rfl
  refine decodes_of_decodeAtIcur hrun ?_
  rw [commonFields_memRead_icur s s.hd (le_refl 22), scUnpack_slice_memRead_icur s 20 (le_refl 22)]
  rfl

/-- Settles O52: MHENC encodes the Frame Control and the common bytes after it. -/
theorem mhencBuildsTheHeader : Obligations.MhencBuildsTheHeader :=
  ⟨decode_encode .mhenc rfl, fun _ => encodesAfterFc_of_encodeAfterFc rfl⟩

/-- Settles O53: both presence bits are those DHCTX derives. -/
theorem dhctxDerivesThePresenceBits : Obligations.DhctxDerivesThePresenceBits := by
  refine ⟨decode_encode .dhctx rfl, fun s => ?_⟩
  have hrun : exec .dhctx s =
      .next (s.putHd { s.hd with a4p := a4pOf s.fc, qosp := qospOf s.params s.fc }).finished := rfl
  rw [hrun, a4pOf_eq_ite, qospOf_eq_ite, State.finished_eq_okReport]
  rfl

/-- Settles O54: DHDEC is a decode operation of the common bytes and those of the optional fields present; the common
fields leave the presence bits, so what follows is read as the bits stood before. -/
theorem dhdecReadsTheHeader : Obligations.DhdecReadsTheHeader := by
  refine ⟨decode_encode .dhdec rfl, fun s => ?_⟩
  have hrun : exec .dhdec s = decodeAtIcur (22 + optionalLength s.hd) (fun b s =>
      (s.putHd (optionalFields b (commonFields b s.hd))).putSc (scUnpack (slice b 20 22))) s := rfl
  have hlength : 22 + 6 * s.hd.a4p.toNat + 2 * s.hd.qosp.toNat = 22 + optionalLength s.hd := Nat.add_assoc _ _ _
  have hcommon : 22 ≤ 22 + optionalLength s.hd := Nat.le_add_right 22 _
  rw [hlength]
  refine decodes_of_decodeAtIcur hrun ?_
  rw [scUnpack_slice_memRead_icur s 20 hcommon, commonFields_memRead_icur s s.hd hcommon,
    optionalFields_memRead_icur s _ (by rfl)]
  rfl

/-- Settles O55: DHENC encodes the Frame Control, the common bytes and the optional fields present. -/
theorem dhencBuildsTheHeader : Obligations.DhencBuildsTheHeader := by
  refine ⟨decode_encode .dhenc rfl, fun s => ?_⟩
  rw [List.append_assoc]
  exact encodesAfterFc_of_encodeAfterFc rfl

end Sys2Proof.Proofs
end

section
/-! The control operations (44_dispatch_control.md R239 to R242): how every operation but CLRS and RST ends, which fixes
what becomes of STICKY (60_exceptions.md R265), and the registers after RST. -/

namespace Sys2Proof.Machine

open Sys2Proof.Spec

/-! ## How an operation ends (60_exceptions.md R265) -/

theorem State.finished_of_status_zero {s : State} (h : s.status = 0) :
    s.finished = { s with status := 0, errinfo := 0 } := by
  have hword : statusWord (statusSticky 0) .ok = 0 := by decide
  rw [State.finished, h, hword]

/-- An operation that began in `s` answers `answer`: it ends OK with the STATUS of `s` still in place, or in an error. -/
inductive Reports (s : State) (answer : Result) : Prop where
  | ok {u : State} (hanswer : answer = .next u.finished) (hstatus : u.status = s.status := by rfl)
  | error {u : State} {r : Report} (hanswer : answer = .next (u.raised r))

theorem Reports.ite {c : Prop} [Decidable c] {s : State} {a b : Result} (ha : Reports s a) (hb : Reports s b) :
    Reports s (if c then a else b) := by
  split
  · exact ha
  · exact hb

/-- An operation that reports leaves STICKY alone or sets it. -/
theorem Reports.sticky {s t : State} (h : Reports s (.next t)) : sticky t = sticky s ∨ sticky t = 1 := by
  cases h with
  | ok hanswer hstatus =>
    cases hanswer
    exact .inl ((statusSticky_statusWord _ .ok).trans (congrArg statusSticky hstatus))
  | error hanswer =>
    cases hanswer
    exact .inr (statusSticky_statusWord 1 _)

theorem decodeAtIcur_reports (n : Nat) (put : List Byte → State → State) (s : State)
    (hput : ∀ b, (put b s).status = s.status := by intros; rfl) : Reports s (decodeAtIcur n put s) :=
  .ite (.error rfl) (.ok rfl (hput _))

theorem encodeAtOcur_reports (out : List Byte) (s : State) : Reports s (encodeAtOcur out s) :=
  .ite (.error rfl) (.ok rfl)

theorem encodeAfterFc_reports (rest : List Byte) (s : State) : Reports s (encodeAfterFc rest s) := by
  cases h : fcPack s.params s.fc with
  | error r => exact .error (encodeAfterFc_error rest h)
  | ok w =>
    rw [encodeAfterFc_ok rest h]
    exact encodeAtOcur_reports (w ++ rest) s

theorem selectHandler_reports (remaining : Nat) {s u : State} (hstatus : u.status = s.status) :
    Reports s (selectHandler remaining u) := by
  cases h : handlerOf u.params u.fc with
  | some v => exact .ok (selectHandler_some remaining h) hstatus
  | none => exact .error (selectHandler_none remaining h)

section
variable (s : State)

theorem execStenc_reports : Reports s (execStenc s) := by
  cases h : subEncode s.params s.fc.type s.fc.sub with
  | error r => exact .error (execStenc_error h)
  | ok n => exact .ok (execStenc_ok h)

theorem execTlvdec_reports : Reports s (execTlvdec s) := by
  cases h : s.parsedSlice with
  | error missing => exact .error (execTlvdec_error h)
  | ok parsed => exact .ok (execTlvdec_ok h)

theorem execTlvenc_reports : Reports s (execTlvenc s) := by
  cases h : firstTooLong 0 (emittedElements s.si) with
  | some e => exact .error (execTlvenc_tooLong h)
  | none =>
    by_cases hroom : s.room < ((emittedElements s.si).flatMap elementBytes).length
    · exact .error (execTlvenc_full h rfl hroom)
    · exact .ok (execTlvenc_fits h rfl hroom)

theorem execRatek_reports : Reports s (execRatek s) := by
  cases h : rateOfOctet s.params.rateTable (opaOctet s.opa) with
  | none => exact .error (execRatek_none h)
  | some r => exact .ok (execRatek_some h)

theorem execKrate_reports : Reports s (execKrate s) := by
  cases h : octetOfRate s.params.rateTable s.opa with
  | none => exact .error (execKrate_none h)
  | some o => exact .ok (execKrate_some h)

theorem execGsel_reports : Reports s (execGsel s) := by
  cases h : generatorOf s.params s.fvar with
  | some v => exact .ok (execGsel_some h)
  | none => exact .error (execGsel_none h)

end

/-- Every operation that does not write STATUS itself ends by reporting. -/
theorem exec_reports {i : Instr} (hclrs : i ≠ .clrs) (hrst : i ≠ .rst) (s : State) : Reports s (exec i s) := by
  cases i with
  | clrs => exact absurd rfl hclrs
  | rst => exact absurd rfl hrst
  | nop | stdec | dhctx => exact .ok rfl
  | skip n => simp only [exec, execSkip]; exact decodeAtIcur_reports _ _ s
  | fcdec => simp only [exec, execFcdec]; exact decodeAtIcur_reports _ _ s
  | scdec => simp only [exec, execScdec]; exact decodeAtIcur_reports _ _ s
  | capdec => simp only [exec, execCapdec]; exact decodeAtIcur_reports _ _ s
  | mhdec => simp only [exec, execMhdec]; exact decodeAtIcur_reports _ _ s
  | dhdec => simp only [exec, execDhdec]; exact decodeAtIcur_reports _ _ s
  | macdec k => exact .ite (decodeAtIcur_reports 6 _ s) (.error rfl)
  | tlvdec => exact execTlvdec_reports s
  | scenc => exact encodeAtOcur_reports (scPack s.sc) s
  | capenc => exact encodeAtOcur_reports (bytesLe16 s.cap) s
  | macenc k => exact .ite (encodeAtOcur_reports (addrReg s.hd k).bytes s) (.error rfl)
  | fcenc => exact encodeAfterFc_reports [] s
  | mhenc => exact encodeAfterFc_reports (commonBytes s) s
  | dhenc => exact encodeAfterFc_reports (commonBytes s ++ optionalBytes s.hd) s
  | tlvenc => exact execTlvenc_reports s
  | stenc => exact execStenc_reports s
  | scnew => exact .ite (.error rfl) (.ok rfl)
  | scset => exact .ite (.error rfl) (.ite (.error rfl) (.ok rfl))
  | ratek => exact execRatek_reports s
  | krate => exact execKrate_reports s
  | disp => exact selectHandler_reports s.avail rfl
  | gsel => exact execGsel_reports s
  | parse => exact .ite (.error rfl) (selectHandler_reports (s.ilen.toNat - 2) rfl)

/-! ## The reset value of `FC.SUB` (10_state.md R41) -/

theorem nameOfCode_zero_eq_some_iff (p : Params) (n : SubtypeName) :
    nameOfCode p 0 = some n ↔ p.tabM[0]? = some (.named n) := by
  rw [show (0 : BitVec 6) = ((0 : BitVec 2) ++ (0 : BitVec 4) : BitVec (2 + 4)) from rfl, nameOfCode_append]
  cases h : p.tabM[0]? <;> simp [tableEntry, frameTypeOf, h]

theorem legalSub_zero_iff (p : Params) : legalSub p 0 = true ↔ ∃ n, p.tabM[0]? = some (.named n) := by
  have hnamed : legalSub p 0 = (nameOfCode p 0).isSome := rfl
  rw [hnamed, Option.isSome_iff_exists]
  exact exists_congr (nameOfCode_zero_eq_some_iff p)

theorem resetSub_resetSubIs (p : Params) : resetSubIs p (resetSub p) := by
  rw [resetSub]
  split
  · next h => exact .inl ⟨(legalSub_zero_iff p).1 h, rfl⟩
  · next h => exact .inr ⟨not_exists.1 (mt (legalSub_zero_iff p).2 h), rfl⟩

end Sys2Proof.Machine

namespace Sys2Proof.Proofs

open Sys2Proof.Machine Sys2Proof.Spec

/-- Settles O21: every other operation ends by reporting, which never takes STICKY from 1 to 0. -/
theorem nopAndClrsReport : Obligations.NopAndClrsReport := by
  refine ⟨decode_encode .nop rfl, decode_encode .clrs rfl, fun s => ⟨rfl, ?_⟩, fun i s t hrun hset hclear => ?_⟩
  · exact congrArg _ (State.finished_of_status_zero (s := { s with status := statusWord 0 .ok }) rfl)
  · by_contra hother
    obtain ⟨hclrs, hrst⟩ := not_or.1 hother
    have hreports : Reports s (.next t) := hrun ▸ exec_reports hclrs hrst s
    obtain hsame | hraised := hreports.sticky
    · exact absurd (hclear.symm.trans (hsame.trans hset)) (by decide)
    · exact absurd (hclear.symm.trans hraised) (by decide)

/-- Settles O22: the reset value of `FC.SUB` is the one register that depends on the parameters. -/
theorem rstRestoresRegisters : Obligations.RstRestoresRegisters :=
  ⟨decode_encode .rst rfl, fun s => ⟨resetSub s.params, resetSub_resetSubIs s.params,
    congrArg _ (State.finished_of_status_zero (s := s.registersReset) rfl)⟩⟩

/-- Settles O23: SKIP is a decode operation that puts nothing, and no byte is ever missing for SKIP 0. -/
theorem skipMovesTheInputCursor : Obligations.SkipMovesTheInputCursor := by
  refine ⟨fun n => decode_encode (.skip n) rfl, fun s n => ?_⟩
  have hdecodes (k : BitVec 8) : decodes (.skip k) s k.toNat s :=
    have hrun : exec (.skip k) s = decodeAtIcur k.toNat (fun _ s => s) s := rfl
    decodes_of_decodeAtIcur hrun rfl
  obtain ⟨hzero, -⟩ := hdecodes 0
  have hicur : s.icur + BitVec.ofNat 16 (BitVec.toNat (0 : BitVec 8)) = s.icur := BitVec.add_zero s.icur
  refine ⟨hdecodes n, (hzero (Nat.zero_le _)).trans ?_⟩
  rw [hicur]

end Sys2Proof.Proofs
end

section
/-! The dispatch selector (44_dispatch_control.md R230 to R233): lookups in registries in which no key occurs twice. -/

namespace Sys2Proof.Machine

open Sys2Proof.Spec

/-! ## The registries (R230) -/

theorem handlerOf_eq_some_iff {p : Params} (hp : p.RegistriesOk) (fc : FrameControl) (h : BitVec 8) :
    handlerOf p fc = some h ↔ ∃ n, nameOfCode p fc.sub = some n ∧ ((frameTypeOf fc.type, n), h) ∈ p.handlers := by
  obtain ⟨hkeys, -⟩ := hp
  cases hname : nameOfCode p fc.sub with
  | none => simp [handlerOf, hname]
  | some n => simp [handlerOf, hname, lookup_eq_some_iff_mem hkeys]

theorem generatorOf_eq_some_iff {p : Params} (hp : p.RegistriesOk) (fvar h : BitVec 8) :
    generatorOf p fvar = some h ↔ (fvar, h) ∈ p.generators := by
  obtain ⟨-, -, hkeys, -⟩ := hp
  exact lookup_eq_some_iff_mem hkeys

/-! ## The selection DISP and PARSE make (R231, R232) -/

section
variable {s : State} (hp : s.params.RegistriesOk) (remaining : Nat)
include hp

theorem selectHandler_of_mem {n : SubtypeName} {h : BitVec 8} (hname : nameOfCode s.params s.fc.sub = some n)
    (hmem : ((frameTypeOf s.fc.type, n), h) ∈ s.params.handlers) :
    selectHandler remaining s = .next (okReport { s with hsel := h }) :=
  selectHandler_some remaining ((handlerOf_eq_some_iff hp s.fc h).2 ⟨n, hname, hmem⟩)

theorem selectHandler_of_not_mem
    (hnone : ∀ n h, nameOfCode s.params s.fc.sub = some n → ((frameTypeOf s.fc.type, n), h) ∉ s.params.handlers) :
    selectHandler remaining s = .next (errReport 9 (BitVec.ofNat 32 remaining) s) := by
  refine selectHandler_none remaining (Option.eq_none_iff_forall_ne_some.2 fun h hsome => ?_)
  obtain ⟨n, hname, hmem⟩ := (handlerOf_eq_some_iff hp s.fc h).1 hsome
  exact hnone n h hname hmem

end

/-! ## PARSE (R232) -/

/-- The Frame Control in the two octets at index 0 (40_frame_control.md R102). -/
theorem fcUnpack_memRead_zero (s : State) :
    fcUnpack s.params (s.memRead 0 2) =
      { ver := (s.ibufByte 0).extractLsb' 0 2
        type := (s.ibufByte 0).extractLsb' 2 2
        sub := subDecode s.params ((s.ibufByte 0).extractLsb' 2 2) ((s.ibufByte 0).extractLsb' 4 4)
        flags := s.ibufByte 1 } := by
  have hfirst : byteAt (s.memRead 0 2) 0 = s.ibufByte 0 := s.byteAt_memRead 0 2 0 (by decide)
  have hsecond : byteAt (s.memRead 0 2) 1 = s.ibufByte 1 := s.byteAt_memRead 0 2 1 (by decide)
  rw [fcUnpack, hfirst, hsecond]

theorem execParse_short {s : State} (h : s.ilen.toNat < 2) :
    execParse s = .next (s.raised (incomplete (2 - s.ilen.toNat))) := if_pos h

theorem execParse_enough {s : State} (h : 2 ≤ s.ilen.toNat) :
    execParse s = selectHandler (s.ilen.toNat - 2) ((s.putFc (fcUnpack s.params (s.memRead 0 2))).putIcur 2) :=
  if_neg (Nat.not_lt.2 h)

end Sys2Proof.Machine

namespace Sys2Proof.Proofs

open Sys2Proof.Machine Sys2Proof.Spec

/-- Settles O58: DISP is the selection with the input bytes left. -/
theorem dispSelectsTheHandler : Obligations.DispSelectsTheHandler :=
  ⟨decode_encode .disp rfl, fun s hp =>
    ⟨fun _ _ => selectHandler_of_mem hp s.avail, selectHandler_of_not_mem hp s.avail⟩⟩

/-- Settles O59: the lookup finds exactly the pairs of `GENERATORS`. -/
theorem gselSelectsTheGenerator : Obligations.GselSelectsTheGenerator := by
  refine ⟨decode_encode .gsel rfl, fun s hp => ⟨fun h hmem => ?_, fun hnone => ?_⟩⟩
  · exact execGsel_some ((generatorOf_eq_some_iff hp s.fvar h).2 hmem)
  · have hlookup : generatorOf s.params s.fvar = none :=
      Option.eq_none_iff_forall_ne_some.2 fun h hsome => hnone h ((generatorOf_eq_some_iff hp s.fvar h).1 hsome)
    rw [BitVec.ofNat_toNat]
    exact execGsel_none hlookup

/-- Settles O60: past the length check PARSE is the selection in the state with the Frame Control and `ICUR` done. -/
theorem parseDecodesAndSelects : Obligations.ParseDecodesAndSelects := by
  refine ⟨decode_encode .parse rfl, fun s d hp hd => ⟨fun henough => ?_, execParse_short⟩⟩
  have hparams : d.params.RegistriesOk := by rwa [hd]
  have hrun : exec .parse s = selectHandler (s.ilen.toNat - 2) d := by
    refine (execParse_enough henough).trans (congrArg _ ?_)
    rw [fcUnpack_memRead_zero, hd]
    rfl
  rw [hrun]
  exact ⟨fun _ _ => selectHandler_of_mem hparams _, selectHandler_of_not_mem hparams _⟩

end Sys2Proof.Proofs
end

section
/-! How operations end (60_exceptions.md R263, R266, R269): OK, or in an error of their row of R263 that leaves the state
they began in but for the report. PARSE alone can raise in a state it has changed. -/

namespace Sys2Proof.Machine

open Sys2Proof.Spec

/-! ## The code an operation ends with -/

@[simp] theorem State.code_finished (s : State) : code s.finished = 0 := statusCode_statusWord _ .ok

@[simp] theorem State.code_raised (s : State) (r : Report) : code (s.raised r) = r.code.number :=
  statusCode_statusWord 1 r.code

/-- `answer` is the end, OK, of an operation in some state, or one of the errors `codes` raised in `s`. -/
inductive EndsOrRaises (codes : List (BitVec 8)) (s : State) (answer : Result) : Prop where
  | ok {u : State} (hanswer : answer = .next u.finished)
  | error {c : Code} {info : BitVec 32} (hanswer : answer = .next (s.raised ⟨c, info⟩))
      (hcode : c.number ∈ codes := by decide)

theorem EndsOrRaises.ite {codes : List (BitVec 8)} {c : Prop} [Decidable c] {s : State} {a b : Result}
    (ha : EndsOrRaises codes s a) (hb : EndsOrRaises codes s b) : EndsOrRaises codes s (if c then a else b) := by
  split
  · exact ha
  · exact hb

theorem EndsOrRaises.exists_next {codes : List (BitVec 8)} {s : State} {answer : Result}
    (h : EndsOrRaises codes s answer) : ∃ t, answer = .next t ∧ code t ∈ 0 :: codes := by
  cases h with
  | ok hanswer => exact ⟨_, hanswer, by simp⟩
  | error hanswer hcode => exact ⟨_, hanswer, by simp [hcode]⟩

/-- An error is one of those listed and changes nothing but the report (R266). -/
theorem EndsOrRaises.of_code_ne_zero {codes : List (BitVec 8)} {s t : State} (h : EndsOrRaises codes s (.next t))
    (ht : code t ≠ 0) : code t ∈ codes ∧ t = { s with status := t.status, errinfo := t.errinfo } := by
  cases h with
  | ok hanswer =>
    cases hanswer
    exact absurd (State.code_finished _) ht
  | error hanswer hcode =>
    cases hanswer
    exact ⟨by rwa [State.code_raised], rfl⟩

/-! ## The shapes of operations -/

/-- The errors of `SubEncode` (40_frame_control.md R109). -/
theorem subEncode_error_code {p : Params} {t : BitVec 2} {sub : BitVec 6} {r : Report}
    (h : subEncode p t sub = .error r) : r.code.number ∈ ([10, 4, 5, 6] : List (BitVec 8)) := by
  obtain ⟨-, hr⟩ | ⟨-, -, hr⟩ | ⟨-, -, hr⟩ | ⟨-, -, -, -, hr⟩ | ⟨_, _, -, -, hr⟩ := subEncode_cases p t sub <;>
    cases h.symm.trans hr <;> simp [Code.number]

theorem decodeAtIcur_endsOrRaises (n : Nat) (put : List Byte → State → State) (s : State) :
    EndsOrRaises [1] s (decodeAtIcur n put s) :=
  .ite (.error rfl) (.ok rfl)

theorem encodeAtOcur_endsOrRaises {codes : List (BitVec 8)} (hcodes : 3 ∈ codes) (out : List Byte) (s : State) :
    EndsOrRaises codes s (encodeAtOcur out s) :=
  .ite (.error rfl hcodes) (.ok rfl)

theorem encodeAfterFc_endsOrRaises (rest : List Byte) (s : State) :
    EndsOrRaises [10, 4, 5, 6, 3] s (encodeAfterFc rest s) := by
  cases h : subEncode s.params s.fc.type s.fc.sub with
  | error r =>
    exact .error (encodeAfterFc_error rest (fcPack_error h)) (List.mem_append_left [3] (subEncode_error_code h))
  | ok nib =>
    rw [encodeAfterFc_ok rest (fcPack_ok h)]
    exact encodeAtOcur_endsOrRaises (by decide) _ s

theorem selectHandler_endsOrRaises (remaining : Nat) (s : State) : EndsOrRaises [9] s (selectHandler remaining s) := by
  cases h : handlerOf s.params s.fc with
  | some v => exact .ok (selectHandler_some remaining h)
  | none => exact .error (selectHandler_none remaining h)

/-- MACDEC and MACENC check that their argument names an address register first (log entry 11). -/
theorem EndsOrRaises.addressed {c : BitVec 8} {s : State} {a : Result} (h : EndsOrRaises [c] s a) (k : BitVec 8)
    (w : CommandWord) :
    EndsOrRaises (if k = 1 ∨ k = 2 ∨ k = 3 ∨ k = 4 then [c] else [14]) s
      (if addrArgOk k then a else raise (illegalCommand w) s) := by
  have hk : addrArgOk k = true ↔ k = 1 ∨ k = 2 ∨ k = 3 ∨ k = 4 := (addrArgOk_iff k).trans (by simp)
  by_cases harg : addrArgOk k = true
  · rwa [if_pos (hk.1 harg), if_pos harg]
  · rw [if_neg (mt hk.2 harg), if_neg harg]
    exact .error rfl

/-! ## Every operation -/

section
variable (s : State)

theorem execStenc_endsOrRaises : EndsOrRaises [10, 4, 5, 6] s (execStenc s) := by
  cases h : subEncode s.params s.fc.type s.fc.sub with
  | error r => exact .error (execStenc_error h) (subEncode_error_code h)
  | ok n => exact .ok (execStenc_ok h)

theorem execTlvdec_endsOrRaises : EndsOrRaises [1] s (execTlvdec s) := by
  cases h : s.parsedSlice with
  | error missing => exact .error (execTlvdec_error h)
  | ok parsed => exact .ok (execTlvdec_ok h)

theorem execTlvenc_endsOrRaises : EndsOrRaises [7, 3] s (execTlvenc s) := by
  cases h : firstTooLong 0 (emittedElements s.si) with
  | some e => exact .error (execTlvenc_tooLong h)
  | none =>
    by_cases hroom : s.room < ((emittedElements s.si).flatMap elementBytes).length
    · exact .error (execTlvenc_full h rfl hroom)
    · exact .ok (execTlvenc_fits h rfl hroom)

theorem execRatek_endsOrRaises : EndsOrRaises [12] s (execRatek s) := by
  cases h : rateOfOctet s.params.rateTable (opaOctet s.opa) with
  | none => exact .error (execRatek_none h)
  | some r => exact .ok (execRatek_some h)

theorem execKrate_endsOrRaises : EndsOrRaises [13] s (execKrate s) := by
  cases h : octetOfRate s.params.rateTable s.opa with
  | none => exact .error (execKrate_none h)
  | some o => exact .ok (execKrate_some h)

theorem execGsel_endsOrRaises : EndsOrRaises [8] s (execGsel s) := by
  cases h : generatorOf s.params s.fvar with
  | some v => exact .ok (execGsel_some h)
  | none => exact .error (execGsel_none h)

/-- PARSE raises `Incomplete` in the state it began in, and `UnhandledFrameSubtype` in the one with the Frame Control
and `ICUR` committed (44_dispatch_control.md R232). -/
theorem execParse_endsOrRaises :
    EndsOrRaises [1] s (execParse s) ∨
      EndsOrRaises [9] ((s.putFc (fcUnpack s.params (s.memRead 0 2))).putIcur 2) (execParse s) := by
  by_cases h : s.ilen.toNat < 2
  · exact .inl (.error (execParse_short h))
  · rw [execParse_enough (Nat.not_lt.1 h)]
    exact .inr (selectHandler_endsOrRaises _ _)

end

/-- Every operation but PARSE ends OK, or raises an error of its row of R263 in the state it began in. -/
theorem exec_endsOrRaises {i : Instr} (hparse : i ≠ .parse) (s : State) : EndsOrRaises (errorsOf i) s (exec i s) := by
  cases i with
  | parse => exact absurd rfl hparse
  | nop | clrs | rst | stdec | dhctx => exact .ok rfl
  | skip | fcdec | scdec | capdec | mhdec | dhdec =>
    simp only [exec, execSkip, execFcdec, execScdec, execCapdec, execMhdec, execDhdec]
    exact decodeAtIcur_endsOrRaises _ _ s
  | macdec k =>
    simp only [exec, execMacdec]
    exact (decodeAtIcur_endsOrRaises 6 _ s).addressed k _
  | tlvdec => exact execTlvdec_endsOrRaises s
  | scenc => exact encodeAtOcur_endsOrRaises (by decide) (scPack s.sc) s
  | capenc => exact encodeAtOcur_endsOrRaises (by decide) (bytesLe16 s.cap) s
  | macenc k => exact (encodeAtOcur_endsOrRaises (by decide) (addrReg s.hd k).bytes s).addressed k _
  | fcenc => exact encodeAfterFc_endsOrRaises [] s
  | mhenc => exact encodeAfterFc_endsOrRaises (commonBytes s) s
  | dhenc => exact encodeAfterFc_endsOrRaises (commonBytes s ++ optionalBytes s.hd) s
  | tlvenc => exact execTlvenc_endsOrRaises s
  | stenc => exact execStenc_endsOrRaises s
  | scnew => exact .ite (.error rfl) (.ok rfl)
  | scset => exact .ite (.error rfl) (.ite (.error rfl) (.ok rfl))
  | ratek => exact execRatek_endsOrRaises s
  | krate => exact execKrate_endsOrRaises s
  | disp => exact selectHandler_endsOrRaises s.avail s
  | gsel => exact execGsel_endsOrRaises s

/-- Every operation ends OK or in an error of its row of R263. -/
theorem exec_code (i : Instr) (s : State) : ∃ t, exec i s = .next t ∧ code t ∈ 0 :: errorsOf i := by
  by_cases hparse : i = .parse
  · subst hparse
    obtain h | h := execParse_endsOrRaises s
    · obtain ⟨t, hrun, hcode⟩ := h.exists_next
      exact ⟨t, hrun, List.mem_append_left [9] hcode⟩
    · obtain ⟨t, hrun, hcode⟩ := h.exists_next
      exact ⟨t, hrun, List.cons_subset_cons 0 (List.subset_cons_self 1 [9]) hcode⟩
  · exact (exec_endsOrRaises hparse s).exists_next

/-- No row of R263 holds a code beyond those of R261, or `ParseFailure` (R268). -/
theorem errorsOf_bounds (i : Instr) : ∀ c ∈ 0 :: errorsOf i, c.toNat ≤ 14 ∧ c ≠ 2 := by
  cases i with
  | macdec k | macenc k => simp only [errorsOf]; split <;> decide
  | _ => simp only [errorsOf]; decide

end Sys2Proof.Machine

namespace Sys2Proof.Proofs

open Sys2Proof.Machine Sys2Proof.Spec

/-- Settles O10: every operation ends in OK or a code of its row of R263, every other word in `IllegalCommand`. -/
theorem everyCommandEndsInAStatusCode : Obligations.EveryCommandEndsInAStatusCode := by
  have hexec (i : Instr) (s : State) : ∃ t, exec i s = .next t ∧ (code t).toNat ≤ 14 ∧ code t ≠ 2 := by
    obtain ⟨t, hrun, hcode⟩ := exec_code i s
    exact ⟨t, hrun, errorsOf_bounds i _ hcode⟩
  refine ⟨fun s w => ?_, hexec⟩
  obtain ⟨i, -, hrun⟩ | ⟨_, -, hrun⟩ := runCommand_cases w s
  · rw [hrun]
    exact hexec i s
  · have hcode : code (s.raised (illegalCommand w)) = 14 := s.code_raised (illegalCommand w)
    exact ⟨_, hrun, by rw [hcode]; decide⟩

/-- Settles O11: an error is raised in the state the operation began in; PARSE's two errors differ in that state, and
their codes tell them apart. -/
theorem errorsChangeOnlyTheReport : Obligations.ErrorsChangeOnlyTheReport := by
  intro i s t hrun hne
  by_cases hparse : i = .parse
  · subst hparse
    have hends := execParse_endsOrRaises s
    have hanswer : execParse s = .next t := hrun
    rw [hanswer] at hends
    obtain hshort | hselect := hends
    · obtain ⟨hcode, ht⟩ := hshort.of_code_ne_zero hne
      have hincomplete : code t = 1 := List.mem_singleton.1 hcode
      rwa [if_neg (by simp [hincomplete])]
    · obtain ⟨hcode, ht⟩ := hselect.of_code_ne_zero hne
      rw [if_pos ⟨rfl, List.mem_singleton.1 hcode⟩, ← fcUnpack_memRead_zero]
      exact ht
  · have hends := exec_endsOrRaises hparse s
    rw [hrun] at hends
    rw [if_neg fun h => hparse h.1]
    exact (hends.of_code_ne_zero hne).2

end Sys2Proof.Proofs
end

section
/-! What every operation does, once for all 28: the state it has reached when it reports (60_exceptions.md R265),
whether it ends OK or in an error. The frames, the bounds of the cursors and the invariant follow from it by cases. -/

namespace Sys2Proof.Machine

open Sys2Proof.Spec

/-- The state PARSE selects a handler in: the Frame Control at index 0 and `ICUR` are committed
(44_dispatch_control.md R232). -/
def State.frameControlTaken (s : State) : State := (s.putFc (fcUnpack s.params (s.memRead 0 2))).putIcur 2

/-- `Performs s i c u`: operation `i`, begun in `s` and about to end with the code `c`, has made `u` of the state. The
report itself is not part of `u`. -/
inductive Performs (s : State) : Instr → Code → State → Prop
  | raised {i : Instr} {c : Code} (hc : c ≠ .ok) : Performs s i c s
  | unselected (henough : 2 ≤ s.ilen.toNat) : Performs s .parse .unhandledFrameSubtype s.frameControlTaken
  | nop : Performs s .nop .ok s
  | clrs : Performs s .clrs .ok { s with status := statusWord 0 .ok }
  | rst : Performs s .rst .ok s.registersReset
  | skip {n : BitVec 8} (henough : n.toNat ≤ s.avail) : Performs s (.skip n) .ok (s.advanceIcur n.toNat)
  | fcdec (henough : 2 ≤ s.avail) :
      Performs s .fcdec .ok ((s.putFc (fcUnpack s.params (s.memRead s.icur.toNat 2))).advanceIcur 2)
  | fcenc {nib : BitVec 4} (hnib : subEncode s.params s.fc.type s.fc.sub = .ok nib)
      (hfits : (fcOut nib s.fc ++ []).length ≤ s.room) : Performs s .fcenc .ok (s.emit (fcOut nib s.fc ++ []))
  | stdec : Performs s .stdec .ok (s.putFc { s.fc with sub := subDecode s.params s.fc.type (opaNibble s.opa) })
  | stenc (nib : BitVec 4) : Performs s .stenc .ok (s.putRes (nib.setWidth 32))
  | scdec (henough : 2 ≤ s.avail) :
      Performs s .scdec .ok ((s.putSc (scUnpack (s.memRead s.icur.toNat 2))).advanceIcur 2)
  | scenc (hfits : (scPack s.sc).length ≤ s.room) : Performs s .scenc .ok (s.emit (scPack s.sc))
  | scnew : Performs s .scnew .ok (s.putSc ⟨0, opaSeq s.opa⟩)
  | scset : Performs s .scset .ok (s.putSc ⟨opbFrag s.opb, opaSeq s.opa⟩)
  | macdec {k : BitVec 8} (hk : addrArgOk k = true) (henough : 6 ≤ s.avail) :
      Performs s (.macdec k) .ok
        ((s.putHd (setAddrReg s.hd k (macOf (s.memRead s.icur.toNat 6)))).advanceIcur 6)
  | macenc {k : BitVec 8} (hfits : (addrReg s.hd k).bytes.length ≤ s.room) :
      Performs s (.macenc k) .ok (s.emit (addrReg s.hd k).bytes)
  | capdec (henough : 2 ≤ s.avail) :
      Performs s .capdec .ok ((s.putCap (le16 (s.memRead s.icur.toNat 2))).advanceIcur 2)
  | capenc (hfits : (bytesLe16 s.cap).length ≤ s.room) : Performs s .capenc .ok (s.emit (bytesLe16 s.cap))
  | tlvdec {si : StationInfo} {tail : List Byte} (hparsed : s.parsedSlice = .ok (si, tail)) :
      Performs s .tlvdec .ok
        (((s.putSi si).putRes (BitVec.ofNat 32 (s.avail - tail.length))).advanceIcur (s.avail - tail.length))
  | tlvenc {out : List Byte} (hlen : firstTooLong 0 (emittedElements s.si) = none)
      (hout : (emittedElements s.si).flatMap elementBytes = out) (hfits : out.length ≤ s.room) :
      Performs s .tlvenc .ok ((s.putRes (BitVec.ofNat 32 out.length)).emit out)
  | ratek (r : BitVec 16) : Performs s .ratek .ok (s.putRes (r.setWidth 32))
  | krate (o : BitVec 8) : Performs s .krate .ok (s.putRes (o.setWidth 32))
  | mhdec (henough : 22 ≤ s.avail) :
      Performs s .mhdec .ok
        (((s.putHd { commonFields (s.memRead s.icur.toNat 22) s.hd with a4p := 0, qosp := 0 }).putSc
          (scUnpack (slice (s.memRead s.icur.toNat 22) 20 22))).advanceIcur 22)
  | mhenc {nib : BitVec 4} (hnib : subEncode s.params s.fc.type s.fc.sub = .ok nib)
      (hfits : (fcOut nib s.fc ++ commonBytes s).length ≤ s.room) :
      Performs s .mhenc .ok (s.emit (fcOut nib s.fc ++ commonBytes s))
  | dhctx : Performs s .dhctx .ok (s.putHd { s.hd with a4p := a4pOf s.fc, qosp := qospOf s.params s.fc })
  | dhdec {n : Nat} {b : List Byte} (hn : 22 + optionalLength s.hd = n) (hb : s.memRead s.icur.toNat n = b)
      (henough : n ≤ s.avail) :
      Performs s .dhdec .ok
        (((s.putHd (optionalFields b (commonFields b s.hd))).putSc (scUnpack (slice b 20 22))).advanceIcur n)
  | dhenc {nib : BitVec 4} (hnib : subEncode s.params s.fc.type s.fc.sub = .ok nib)
      (hfits : (fcOut nib s.fc ++ (commonBytes s ++ optionalBytes s.hd)).length ≤ s.room) :
      Performs s .dhenc .ok (s.emit (fcOut nib s.fc ++ (commonBytes s ++ optionalBytes s.hd)))
  | disp {v : BitVec 8} (hv : handlerOf s.params s.fc = some v) : Performs s .disp .ok (s.putHsel v)
  | gsel {v : BitVec 8} (hv : generatorOf s.params s.fvar = some v) :
      Performs s .gsel .ok ((s.putHsel v).putOcur 0)
  | parse {v : BitVec 8} (henough : 2 ≤ s.ilen.toNat)
      (hv : handlerOf s.params (fcUnpack s.params (s.memRead 0 2)) = some v) :
      Performs s .parse .ok (s.frameControlTaken.putHsel v)

/-- `answer` is how `i`, begun in `s`, ends: with the OK report or an error's, in a state that `i` makes of `s`. -/
inductive Ends (s : State) (i : Instr) (answer : Result) : Prop
  | ok {u : State} (hanswer : answer = .next u.finished) (hu : Performs s i .ok u)
  | error {u : State} {c : Code} {info : BitVec 32} (hanswer : answer = .next (u.raised ⟨c, info⟩)) (hc : c ≠ .ok)
      (hu : Performs s i c u)

theorem Ends.raises {s : State} {i : Instr} {answer : Result} {c : Code} {info : BitVec 32}
    (hanswer : answer = .next (s.raised ⟨c, info⟩)) (hc : c ≠ .ok := by decide) : Ends s i answer :=
  .error hanswer hc (.raised hc)

/-! ## The shapes of operations -/

section
variable {s : State} {i : Instr}

theorem decodeAtIcur_ends {n : Nat} {put : List Byte → State → State}
    (hput : n ≤ s.avail → Performs s i .ok ((put (s.memRead s.icur.toNat n) s).advanceIcur n)) :
    Ends s i (decodeAtIcur n put s) := by
  by_cases h : s.avail < n
  · exact .raises (decodeAtIcur_short n put s h)
  · exact .ok (decodeAtIcur_enough n put s (Nat.not_lt.1 h)) (hput (Nat.not_lt.1 h))

theorem encodeAtOcur_ends {out : List Byte} (hemit : out.length ≤ s.room → Performs s i .ok (s.emit out)) :
    Ends s i (encodeAtOcur out s) := by
  by_cases h : s.room < out.length
  · exact .raises (encodeAtOcur_full out s h)
  · exact .ok (encodeAtOcur_fits out s (Nat.not_lt.1 h)) (hemit (Nat.not_lt.1 h))

theorem subEncode_error_ne_ok {p : Params} {t : BitVec 2} {sub : BitVec 6} {r : Report}
    (h : subEncode p t sub = .error r) : r.code ≠ .ok := by
  intro hok
  have hmem := subEncode_error_code h
  rw [hok] at hmem
  exact absurd hmem (by decide)

theorem encodeAfterFc_ends {rest : List Byte}
    (hemit : ∀ nib, subEncode s.params s.fc.type s.fc.sub = .ok nib → (fcOut nib s.fc ++ rest).length ≤ s.room →
      Performs s i .ok (s.emit (fcOut nib s.fc ++ rest))) : Ends s i (encodeAfterFc rest s) := by
  cases h : subEncode s.params s.fc.type s.fc.sub with
  | error r => exact .raises (encodeAfterFc_error rest (fcPack_error h)) (subEncode_error_ne_ok h)
  | ok nib =>
    rw [encodeAfterFc_ok rest (fcPack_ok h)]
    exact encodeAtOcur_ends (hemit nib h)

end

/-! ## Every operation -/

section
variable (s : State)

theorem execStenc_ends : Ends s .stenc (execStenc s) := by
  cases h : subEncode s.params s.fc.type s.fc.sub with
  | error r => exact .raises (execStenc_error h) (subEncode_error_ne_ok h)
  | ok nib => exact .ok (execStenc_ok h) (.stenc nib)

theorem execScnew_ends : Ends s .scnew (execScnew s) := by
  by_cases h : 4095 < s.opa
  · exact .raises (execScnew_seqOutOfRange h)
  · exact .ok (execScnew_inRange h) .scnew

theorem execScset_ends : Ends s .scset (execScset s) := by
  by_cases hseq : 4095 < s.opa
  · exact .raises (execScset_seqOutOfRange hseq)
  · by_cases hfrag : 15 < s.opb
    · exact .raises (execScset_fragOutOfRange hseq hfrag)
    · exact .ok (execScset_inRange hseq hfrag) .scset

theorem execMacdec_ends (k : BitVec 8) : Ends s (.macdec k) (execMacdec k s) := by
  unfold execMacdec
  split
  · next hk => exact decodeAtIcur_ends (.macdec hk)
  · exact .raises rfl

theorem execMacenc_ends (k : BitVec 8) : Ends s (.macenc k) (execMacenc k s) := by
  unfold execMacenc
  split
  · exact encodeAtOcur_ends .macenc
  · exact .raises rfl

theorem execTlvdec_ends : Ends s .tlvdec (execTlvdec s) := by
  cases h : s.parsedSlice with
  | error missing => exact .raises (execTlvdec_error h)
  | ok parsed => exact .ok (execTlvdec_ok h) (.tlvdec h)

theorem execTlvenc_ends : Ends s .tlvenc (execTlvenc s) := by
  cases h : firstTooLong 0 (emittedElements s.si) with
  | some e => exact .raises (execTlvenc_tooLong h)
  | none =>
    by_cases hroom : s.room < ((emittedElements s.si).flatMap elementBytes).length
    · exact .raises (execTlvenc_full h rfl hroom)
    · exact .ok (execTlvenc_fits h rfl hroom) (.tlvenc h rfl (Nat.not_lt.1 hroom))

theorem execRatek_ends : Ends s .ratek (execRatek s) := by
  cases h : rateOfOctet s.params.rateTable (opaOctet s.opa) with
  | none => exact .raises (execRatek_none h)
  | some r => exact .ok (execRatek_some h) (.ratek r)

theorem execKrate_ends : Ends s .krate (execKrate s) := by
  cases h : octetOfRate s.params.rateTable s.opa with
  | none => exact .raises (execKrate_none h)
  | some o => exact .ok (execKrate_some h) (.krate o)

theorem execDisp_ends : Ends s .disp (execDisp s) := by
  cases h : handlerOf s.params s.fc with
  | none => exact .raises (selectHandler_none s.avail h)
  | some v => exact .ok (selectHandler_some s.avail h) (.disp h)

theorem execGsel_ends : Ends s .gsel (execGsel s) := by
  cases h : generatorOf s.params s.fvar with
  | none => exact .raises (execGsel_none h)
  | some v => exact .ok (execGsel_some h) (.gsel h)

theorem execParse_ends : Ends s .parse (execParse s) := by
  by_cases hshort : s.ilen.toNat < 2
  · exact .raises (execParse_short hshort)
  · have henough := Nat.not_lt.1 hshort
    rw [execParse_enough henough]
    cases h : handlerOf s.params (fcUnpack s.params (s.memRead 0 2)) with
    | none => exact .error (selectHandler_none (s := s.frameControlTaken) _ h) (by decide) (.unselected henough)
    | some v => exact .ok (selectHandler_some (s := s.frameControlTaken) _ h) (.parse henough h)

end

/-- Everything an operation can do. -/
theorem exec_ends (i : Instr) (s : State) : Ends s i (exec i s) := by
  cases i with
  | nop => exact .ok rfl .nop
  | clrs => exact .ok rfl .clrs
  | rst => exact .ok rfl .rst
  | stdec => exact .ok rfl .stdec
  | dhctx => exact .ok rfl .dhctx
  | skip n => simp only [exec, execSkip]; exact decodeAtIcur_ends .skip
  | fcdec => simp only [exec, execFcdec]; exact decodeAtIcur_ends .fcdec
  | scdec => simp only [exec, execScdec]; exact decodeAtIcur_ends .scdec
  | capdec => simp only [exec, execCapdec]; exact decodeAtIcur_ends .capdec
  | mhdec => simp only [exec, execMhdec]; exact decodeAtIcur_ends .mhdec
  | dhdec => simp only [exec, execDhdec]; exact decodeAtIcur_ends (.dhdec rfl rfl)
  | macdec k => exact execMacdec_ends s k
  | tlvdec => exact execTlvdec_ends s
  | fcenc => exact encodeAfterFc_ends fun _ => .fcenc
  | mhenc => exact encodeAfterFc_ends fun _ => .mhenc
  | dhenc => exact encodeAfterFc_ends fun _ => .dhenc
  | scenc => exact encodeAtOcur_ends .scenc
  | capenc => exact encodeAtOcur_ends .capenc
  | macenc k => exact execMacenc_ends s k
  | tlvenc => exact execTlvenc_ends s
  | stenc => exact execStenc_ends s
  | scnew => exact execScnew_ends s
  | scset => exact execScset_ends s
  | ratek => exact execRatek_ends s
  | krate => exact execKrate_ends s
  | disp => exact execDisp_ends s
  | gsel => exact execGsel_ends s
  | parse => exact execParse_ends s

/-! ## From an answer -/

theorem Code.number_eq_zero_iff (c : Code) : c.number = 0 ↔ c = .ok := by
  cases c <;> decide

section
variable {i : Instr} {s t : State}

/-- The state an operation answers is the one it has reached, but for the report. -/
theorem exec_performs (h : exec i s = .next t) :
    ∃ c u, Performs s i c u ∧ t = { u with status := t.status, errinfo := t.errinfo } := by
  have hends := exec_ends i s
  rw [h] at hends
  cases hends with
  | ok hanswer hu => cases hanswer; exact ⟨_, _, hu, rfl⟩
  | error hanswer _ hu => cases hanswer; exact ⟨_, _, hu, rfl⟩

theorem exec_performs_ok (h : exec i s = .next t) (hok : code t = 0) : ∃ u, Performs s i .ok u ∧ t = u.finished := by
  have hends := exec_ends i s
  rw [h] at hends
  cases hends with
  | ok hanswer hu => cases hanswer; exact ⟨_, hu, rfl⟩
  | error hanswer hc _ =>
    cases hanswer
    exact absurd ((Code.number_eq_zero_iff _).1 ((State.code_raised _ _).symm.trans hok)) hc

end

/-! ## The address registers by number (00_scope.md R11) -/

section
variable {h : Header} {k : BitVec 8} {m : MacAddr}

/-- Putting an address is putting one of the four. -/
theorem setAddrReg_cases (h : Header) (k : BitVec 8) (m : MacAddr) :
    (k = 1 ∧ setAddrReg h k m = { h with a1 := m }) ∨ (k = 2 ∧ setAddrReg h k m = { h with a2 := m }) ∨
      (k = 3 ∧ setAddrReg h k m = { h with a3 := m }) ∨
      (k ≠ 1 ∧ k ≠ 2 ∧ k ≠ 3 ∧ setAddrReg h k m = { h with a4 := m }) := by
  unfold setAddrReg
  split
  · exact .inl ⟨‹_›, rfl⟩
  · split
    · exact .inr (.inl ⟨‹_›, rfl⟩)
    · split
      · exact .inr (.inr (.inl ⟨‹_›, rfl⟩))
      · exact .inr (.inr (.inr ⟨‹_›, ‹_›, ‹_›, rfl⟩))

theorem setAddrReg_dur (h : Header) (k : BitVec 8) (m : MacAddr) : (setAddrReg h k m).dur = h.dur := by
  obtain ⟨-, heq⟩ | ⟨-, heq⟩ | ⟨-, heq⟩ | ⟨-, -, -, heq⟩ := setAddrReg_cases h k m <;> rw [heq]

theorem setAddrReg_qos (h : Header) (k : BitVec 8) (m : MacAddr) : (setAddrReg h k m).qos = h.qos := by
  obtain ⟨-, heq⟩ | ⟨-, heq⟩ | ⟨-, heq⟩ | ⟨-, -, -, heq⟩ := setAddrReg_cases h k m <;> rw [heq]

theorem setAddrReg_presenceBits (h : Header) (k : BitVec 8) (m : MacAddr) :
    (setAddrReg h k m).a4p = h.a4p ∧ (setAddrReg h k m).qosp = h.qosp := by
  obtain ⟨-, heq⟩ | ⟨-, heq⟩ | ⟨-, heq⟩ | ⟨-, -, -, heq⟩ := setAddrReg_cases h k m <;> rw [heq] <;> exact ⟨rfl, rfl⟩

theorem setAddrReg_a1 (hk : k ≠ 1) : (setAddrReg h k m).a1 = h.a1 := by
  obtain ⟨hk', -⟩ | ⟨-, heq⟩ | ⟨-, heq⟩ | ⟨-, -, -, heq⟩ := setAddrReg_cases h k m
  · exact absurd hk' hk
  all_goals rw [heq]

theorem setAddrReg_a2 (hk : k ≠ 2) : (setAddrReg h k m).a2 = h.a2 := by
  obtain ⟨-, heq⟩ | ⟨hk', -⟩ | ⟨-, heq⟩ | ⟨-, -, -, heq⟩ := setAddrReg_cases h k m
  case inr.inl => exact absurd hk' hk
  all_goals rw [heq]

theorem setAddrReg_a3 (hk : k ≠ 3) : (setAddrReg h k m).a3 = h.a3 := by
  obtain ⟨-, heq⟩ | ⟨-, heq⟩ | ⟨hk', -⟩ | ⟨-, -, -, heq⟩ := setAddrReg_cases h k m
  case inr.inr.inl => exact absurd hk' hk
  all_goals rw [heq]

theorem setAddrReg_a4 (hadmitted : addrArgOk k = true) (hk : k ≠ 4) : (setAddrReg h k m).a4 = h.a4 := by
  obtain ⟨-, heq⟩ | ⟨-, heq⟩ | ⟨-, heq⟩ | ⟨h1, h2, h3, -⟩ := setAddrReg_cases h k m
  case inr.inr.inr => exact absurd hadmitted (by simpa [addrArgOk] using ⟨⟨⟨h1, h2⟩, h3⟩, hk⟩)
  all_goals rw [heq]

end

/-! ## The report (60_exceptions.md R265) -/

/-- CLRS and RST put the STATUS they report themselves; every other operation leaves it to the report. -/
theorem Performs.sticky_eq {s u : State} {i : Instr} (h : Performs s i .ok u) :
    sticky u = if i = .clrs ∨ i = .rst then 0 else sticky s := by
  cases h with
  | raised hc => exact absurd rfl hc
  | clrs =>
    rw [if_pos (by simp)]
    exact statusSticky_statusWord 0 .ok
  | rst =>
    have hreset : statusSticky 0 = 0 := by decide
    rw [if_pos (by simp)]
    exact hreset
  | _ => exact (if_neg (by simp)).symm

/-! ## Frames (10_state.md R42) -/

section
variable {s u : State} {i : Instr} {c : Code} (h : Performs s i c u)
include h

theorem Performs.params_eq : u.params = s.params := by cases h <;> rfl

theorem Performs.env_eq : u.env = s.env := by cases h <;> rfl

theorem Performs.hostRegisters_eq (hi : i ≠ .rst) :
    u.ilen = s.ilen ∧ u.ocap = s.ocap ∧ u.opa = s.opa ∧ u.opb = s.opb ∧ u.fvar = s.fvar := by
  cases h with
  | rst => exact absurd rfl hi
  | _ => exact ⟨rfl, rfl, rfl, rfl, rfl⟩

theorem Performs.icur_eq (hi : writesIcur i = false) : u.icur = s.icur := by
  cases h with
  | rst | skip | fcdec | scdec | macdec | capdec | tlvdec | mhdec | dhdec | parse | unselected => cases hi
  | _ => rfl

theorem Performs.ocur_eq (hi : writesOcur i = false) : u.ocur = s.ocur := by
  cases h with
  | rst | fcenc | scenc | macenc | capenc | tlvenc | mhenc | dhenc | gsel => cases hi
  | _ => rfl

theorem Performs.res_eq (hi : i ∉ [.rst, .stenc, .tlvdec, .tlvenc, .ratek, .krate]) : u.res = s.res := by
  cases h with
  | rst | stenc | tlvdec | tlvenc | ratek | krate => simp at hi
  | _ => rfl

theorem Performs.hsel_eq (hi : i ∉ [.rst, .disp, .gsel, .parse]) : u.hsel = s.hsel := by
  cases h with
  | rst | disp | gsel | parse => simp at hi
  | _ => rfl

theorem Performs.fc_eq_with_sub (hi : i ∉ [.rst, .fcdec, .parse]) : u.fc = { s.fc with sub := u.fc.sub } := by
  cases h with
  | rst | fcdec | parse | unselected => simp at hi
  | _ => rfl

theorem Performs.sub_eq (hi : i ∉ [.rst, .fcdec, .parse, .stdec]) : u.fc.sub = s.fc.sub := by
  cases h with
  | rst | fcdec | parse | unselected | stdec => simp at hi
  | _ => rfl

theorem Performs.sc_eq (hi : i ∉ [.rst, .scdec, .scnew, .scset, .mhdec, .dhdec]) : u.sc = s.sc := by
  cases h with
  | rst | scdec | scnew | scset | mhdec | dhdec => simp at hi
  | _ => rfl

theorem Performs.cap_eq (hi : i ∉ [.rst, .capdec]) : u.cap = s.cap := by
  cases h with
  | rst | capdec => simp at hi
  | _ => rfl

theorem Performs.si_eq (hi : i ∉ [.rst, .tlvdec]) : u.si = s.si := by
  cases h with
  | rst | tlvdec => simp at hi
  | _ => rfl

theorem Performs.presenceBits_eq (hi : i ∉ [.rst, .mhdec, .dhctx]) : u.hd.a4p = s.hd.a4p ∧ u.hd.qosp = s.hd.qosp := by
  cases h with
  | rst | mhdec | dhctx => simp at hi
  | macdec => exact setAddrReg_presenceBits _ _ _
  | _ => exact ⟨rfl, rfl⟩

theorem Performs.dur_eq (hi : i ∉ [.rst, .mhdec, .dhdec]) : u.hd.dur = s.hd.dur := by
  cases h with
  | rst | mhdec | dhdec => simp at hi
  | macdec => exact setAddrReg_dur _ _ _
  | _ => rfl

theorem Performs.a1_eq (hi : i ∉ [.rst, .mhdec, .dhdec, .macdec 1]) : u.hd.a1 = s.hd.a1 := by
  cases h with
  | rst | mhdec | dhdec => simp at hi
  | macdec => exact setAddrReg_a1 (by simpa using hi)
  | _ => rfl

theorem Performs.a2_eq (hi : i ∉ [.rst, .mhdec, .dhdec, .macdec 2]) : u.hd.a2 = s.hd.a2 := by
  cases h with
  | rst | mhdec | dhdec => simp at hi
  | macdec => exact setAddrReg_a2 (by simpa using hi)
  | _ => rfl

theorem Performs.a3_eq (hi : i ∉ [.rst, .mhdec, .dhdec, .macdec 3]) : u.hd.a3 = s.hd.a3 := by
  cases h with
  | rst | mhdec | dhdec => simp at hi
  | macdec => exact setAddrReg_a3 (by simpa using hi)
  | _ => rfl

theorem Performs.a4_eq (hi : i ∉ [.rst, .macdec 4]) (hpresent : ¬ (i = .dhdec ∧ s.hd.a4p = 1)) :
    u.hd.a4 = s.hd.a4 := by
  cases h with
  | rst => simp at hi
  | macdec hk => exact setAddrReg_a4 hk (by simpa using hi)
  | dhdec => exact if_neg fun hp => hpresent ⟨rfl, hp⟩
  | _ => rfl

theorem Performs.qos_eq (hi : i ≠ .rst) (hpresent : ¬ (i = .dhdec ∧ s.hd.qosp = 1)) : u.hd.qos = s.hd.qos := by
  cases h with
  | rst => exact absurd rfl hi
  | macdec => exact setAddrReg_qos _ _ _
  | dhdec => exact if_neg fun hp => hpresent ⟨rfl, hp⟩
  | _ => rfl

end

end Sys2Proof.Machine

namespace Sys2Proof.Proofs

open Sys2Proof.Machine Sys2Proof.Spec

/-- Settles O12: an operation ends with the OK report, which keeps the STICKY it has come to, or with an error's, which
sets it. -/
theorem everyOperationReports : Obligations.EveryOperationReports := by
  intro i s t hrun
  have hends := exec_ends i s
  rw [hrun] at hends
  cases hends with
  | @ok u hanswer hu =>
    cases hanswer
    have hsticky : sticky u.finished = sticky u := statusSticky_statusWord _ .ok
    exact ⟨fun _ => ⟨rfl, hsticky.trans hu.sticky_eq⟩, fun herror => absurd (State.code_finished u) herror⟩
  | @error u c info hanswer hc _ =>
    cases hanswer
    have hcode : code (u.raised ⟨c, info⟩) = c.number := State.code_raised u _
    exact ⟨fun hok => absurd ((Code.number_eq_zero_iff c).1 (hcode.symm.trans hok)) hc,
      fun _ => statusSticky_statusWord 1 c⟩

/-- Settles O13: every operation ends OK or in a code of its row of R263. -/
theorem operationsRaiseOnlyTheirErrors : Obligations.OperationsRaiseOnlyTheirErrors := by
  intro i s t hrun
  obtain ⟨t', hrun', hcode⟩ := exec_code i s
  obtain rfl : t' = t := Host.Outcome.next.inj (hrun'.symm.trans hrun)
  exact List.mem_cons.1 hcode

/-- Settles O16: the report of an operation touches no other register, so its frame is that of the state it has
reached. -/
theorem onlyTheListedOperationsWrite : Obligations.OnlyTheListedOperationsWrite := by
  intro i s t hrun
  obtain ⟨c, u, hu, ht⟩ := exec_performs hrun
  rw [ht]
  exact ⟨hu.params_eq, hu.env_eq, hu.hostRegisters_eq, hu.icur_eq, hu.ocur_eq, hu.res_eq, hu.hsel_eq,
    hu.fc_eq_with_sub, hu.sub_eq, hu.sc_eq, hu.dur_eq, hu.a1_eq, hu.a2_eq, hu.a3_eq, hu.a4_eq, hu.qos_eq,
    hu.presenceBits_eq, hu.cap_eq, hu.si_eq⟩

end Sys2Proof.Proofs
end

section
/-! The bounds of what an operation touches: the bytes of `OBUF` it stores (20_memory.md R60, R67) and how far it moves
the two cursors (10_state.md R24). -/

namespace Sys2Proof.Machine

open Sys2Proof.Spec

/-! ## The bytes stored at `OCUR` (R67) -/

theorem optionalBytes_length (h : Header) : (optionalBytes h).length = optionalLength h := by
  rw [optionalBytes, optionalLength, List.length_append]
  obtain ha | ha := BitVec.eq_zero_or_eq_one h.a4p <;> obtain hq | hq := BitVec.eq_zero_or_eq_one h.qosp <;>
    rw [ha, hq] <;> rfl

theorem commonBytes_length (s : State) : (commonBytes s).length = 22 := rfl

/-- An operation stores at most the bytes of its row of R67, and only where they fit. -/
theorem Performs.stores {s u : State} {i : Instr} {c : Code} (h : Performs s i c u) :
    ∃ out : List Byte, out.length ≤ storedBytes i s ∧ (out = [] ∨ out.length ≤ s.room) ∧
      u.obuf = (s.emit out).obuf := by
  cases h with
  | fcenc _ hfits | scenc hfits | macenc hfits | capenc hfits | mhenc _ hfits => exact ⟨_, le_rfl, .inr hfits, rfl⟩
  | @dhenc nib _ hfits =>
    have hlength : (fcOut nib s.fc ++ (commonBytes s ++ optionalBytes s.hd)).length = storedBytes .dhenc s := by
      rw [List.length_append, List.length_append, commonBytes_length, optionalBytes_length]
      exact (Nat.add_assoc 2 22 _).symm.trans (Nat.add_assoc 24 _ _).symm
    exact ⟨_, hlength.le, .inr hfits, rfl⟩
  | tlvenc _ hout hfits =>
    rw [emittedElements_eq_emission] at hout
    exact ⟨_, (congrArg List.length hout).ge, .inr hfits, rfl⟩
  | _ => exact ⟨[], Nat.zero_le _, .inl rfl, rfl⟩

/-! ## The cursors (R24) -/

/-- The cursor `c` stays or moves forward, to `c'`, within the limit. -/
def CursorMoves (lim c c' : BitVec 16) : Prop := c' = c ∨ (c.toNat < c'.toNat ∧ c'.toNat ≤ lim.toNat)

/-- A cursor does not wrap when it moves over bytes that are there. -/
theorem toNat_cursor_add {lim c : BitVec 16} {n : Nat} (h : n ≤ lim.toNat - c.toNat) :
    (c + BitVec.ofNat 16 n).toNat = c.toNat + n := by
  rw [BitVec.toNat_add, BitVec.toNat_ofNat]
  omega

theorem cursorMoves_add {lim c : BitVec 16} {n : Nat} (h : n ≤ lim.toNat - c.toNat) :
    CursorMoves lim c (c + BitVec.ofNat 16 n) := by
  have hexact := toNat_cursor_add h
  obtain rfl | hpos := Nat.eq_zero_or_pos n
  · exact .inl (BitVec.add_zero c)
  · exact .inr (by omega)

section
variable {s u : State} {i : Instr} {c : Code}

theorem Performs.icur_moves (h : Performs s i c u) (hrst : i ≠ .rst) (hparse : i ≠ .parse) :
    CursorMoves s.ilen s.icur u.icur := by
  cases h with
  | rst => exact absurd rfl hrst
  | parse | unselected => exact absurd rfl hparse
  | skip henough | fcdec henough | scdec henough | macdec _ henough | capdec henough | mhdec henough
  | dhdec _ _ henough => exact cursorMoves_add henough
  | tlvdec => exact cursorMoves_add (Nat.sub_le _ _)
  | _ => exact .inl rfl

theorem Performs.icur_of_parse (h : Performs s .parse c u) :
    u.icur = s.icur ∨ (u.icur = 2 ∧ 2 ≤ s.ilen.toNat) := by
  cases h with
  | raised => exact .inl rfl
  | unselected henough | parse henough => exact .inr ⟨rfl, henough⟩

theorem Performs.ocur_moves (h : Performs s i c u) (hrst : i ≠ .rst) (hgsel : i ≠ .gsel) :
    CursorMoves s.ocap s.ocur u.ocur := by
  cases h with
  | rst => exact absurd rfl hrst
  | gsel => exact absurd rfl hgsel
  | fcenc _ hfits | scenc hfits | macenc hfits | capenc hfits | mhenc _ hfits | dhenc _ hfits | tlvenc _ _ hfits =>
    exact cursorMoves_add hfits
  | _ => exact .inl rfl

theorem Performs.ocur_of_gsel (h : Performs s .gsel c u) : u.ocur = s.ocur ∨ u.ocur = 0 := by
  cases h with
  | raised => exact .inl rfl
  | gsel => exact .inr rfl

end

end Sys2Proof.Machine

namespace Sys2Proof.Proofs

open Sys2Proof.Machine Sys2Proof.Spec

/-- Settles O17: the bytes stored lie among those of the operation's row of R67. -/
theorem storesStayInTheirBytes : Obligations.StoresStayInTheirBytes := by
  intro i s t hrun a ha
  obtain ⟨c, u, hu, ht⟩ := exec_performs hrun
  obtain ⟨out, hlength, -, hobuf⟩ := hu.stores
  have hstored : t.obufByte a = (s.emit out).obufByte a :=
    State.obufByte_congr (by rw [ht, hobuf]) (by rw [ht, hu.env_eq]; rfl) a
  rw [hstored]
  exact State.emit_obufByte_outside s out a (by omega)

/-- Settles O20: a cursor moves over bytes that are there, and PARSE and GSEL set one. -/
theorem cursorsStayWithinTheirLimits : Obligations.CursorsStayWithinTheirLimits := by
  intro i s t hrun hrst
  obtain ⟨c, u, hu, ht⟩ := exec_performs hrun
  rw [ht]
  constructor
  · by_cases hparse : i = .parse
    · subst hparse
      refine hu.icur_of_parse.imp_right fun ⟨hicur, henough⟩ => ⟨?_, by rwa [if_pos rfl]⟩
      have htwo : u.icur.toNat = 2 := congrArg BitVec.toNat hicur
      exact htwo.trans_le henough
    · rw [if_neg hparse]
      exact (hu.icur_moves hrst hparse).imp_right And.symm
  · by_cases hgsel : i = .gsel
    · subst hgsel
      rw [if_pos rfl]
      exact hu.ocur_of_gsel
    · rw [if_neg hgsel]
      exact hu.ocur_moves hrst hgsel

end Sys2Proof.Proofs
end

section
/-! The pure codecs as inverses: `SubEncode` by the entries of the type's table (40_frame_control.md R109), Frame
Control (R114, R115) and Sequence Control (41_primitive_codecs.md R137). -/

namespace Sys2Proof.Machine

open Sys2Proof.Spec

/-! ## Bits and their parts -/

/-- A bit vector is its high bits before its low bits. -/
theorem extractLsb'_append_self {m n : Nat} (v : BitVec (m + n)) :
    (v.extractLsb' n m ++ v.extractLsb' 0 n : BitVec (m + n)) = v := by
  rw [BitVec.extractLsb'_append_extractLsb'_eq_extractLsb' (start₁ := 0) (start₂ := n) (Nat.zero_add n).symm]
  exact BitVec.extractLsb'_eq_self

/-- The fields of the first octet of a Frame Control (40_frame_control.md R101). -/
theorem fcOctet_fields (nib : BitVec 4) (type ver : BitVec 2) :
    ((nib ++ type ++ ver : BitVec (4 + 2 + 2)) : Byte).extractLsb' 0 2 = ver ∧
      ((nib ++ type ++ ver : BitVec (4 + 2 + 2)) : Byte).extractLsb' 2 2 = type ∧
      ((nib ++ type ++ ver : BitVec (4 + 2 + 2)) : Byte).extractLsb' 4 4 = nib := by
  revert nib type ver; decide

theorem fcOctet_of_fields (b : Byte) :
    ((b.extractLsb' 4 4 ++ b.extractLsb' 2 2 ++ b.extractLsb' 0 2 : BitVec (4 + 2 + 2)) : Byte) = b := by
  revert b; decide

/-! ## `SubEncode` (R109) -/

section
variable {p : Params} {type : BitVec 2} {sub : BitVec 6} {nib : BitVec 4} {n : SubtypeName}

theorem subEncode_unknown (h : type = 3) : subEncode p type sub = .error ⟨.unhandledProtocol, 0⟩ :=
  if_pos ((frameTypeOf_unknown_iff type).2 h)

theorem subEncode_reserved (h : type ≠ 3) : subEncode p type subReserved = .error ⟨.subtypeReserved, 0⟩ :=
  (if_neg (mt (frameTypeOf_unknown_iff type).1 h)).trans (if_pos rfl)

theorem subEncode_unhandled (h : type ≠ 3) : subEncode p type subUnhandled = .error ⟨.subtypeUnhandled, 0⟩ :=
  (if_neg (mt (frameTypeOf_unknown_iff type).1 h)).trans ((if_neg (by decide)).trans (if_pos rfl))

theorem subEncode_named (h : tableEntry p (frameTypeOf type) nib = .named n) :
    subEncode p type (type ++ nib) = .ok nib := by
  have htype : frameTypeOf type ≠ .unknown := tableEntry_named_type h
  obtain ⟨hreserved, hunhandled⟩ := append_ne_sentinel type nib (mt (frameTypeOf_unknown_iff type).2 htype)
  have hname : (nameOfCode p (type ++ nib)).isSome = true :=
    Option.isSome_iff_exists.2 ⟨n, (nameOfCode_append p type nib n).2 h⟩
  rw [subEncode, if_neg htype, if_neg hreserved, if_neg hunhandled, if_pos ⟨category_append type nib, hname⟩,
    nibble_append]

/-- `SubEncode` gives a nibble only for the code of a subtype that is named there. -/
theorem subEncode_eq_ok_iff :
    subEncode p type sub = .ok nib ↔ sub = type ++ nib ∧ ∃ n, tableEntry p (frameTypeOf type) nib = .named n := by
  constructor
  · intro h
    obtain ⟨-, hr⟩ | ⟨-, -, hr⟩ | ⟨-, -, hr⟩ | ⟨-, -, -, -, hr⟩ | ⟨nib', n, hsub, hentry, hr⟩ :=
      subEncode_cases p type sub
    case inr.inr.inr.inr =>
      obtain rfl : nib = nib' := Except.ok.inj (h.symm.trans hr)
      exact ⟨hsub, n, hentry⟩
    all_goals exact absurd (h.symm.trans hr) nofun
  · rintro ⟨rfl, n, h⟩
    exact subEncode_named h

/-- A code that is no sentinel and no name of the type's table. -/
theorem subEncode_mismatch (htype : type ≠ 3) (hreserved : sub ≠ subReserved) (hunhandled : sub ≠ subUnhandled)
    (hnone : ∀ nib n, tableEntry p (frameTypeOf type) nib = .named n → sub ≠ type ++ nib) :
    subEncode p type sub = .error ⟨.subtypeMismatch, (type ++ sub).setWidth 32⟩ := by
  obtain ⟨hunknown, -⟩ | ⟨-, hsub, -⟩ | ⟨-, hsub, -⟩ | ⟨-, -, -, -, hr⟩ | ⟨nib, n, hsub, hentry, -⟩ :=
    subEncode_cases p type sub
  · exact absurd ((frameTypeOf_unknown_iff type).1 hunknown) htype
  · exact absurd hsub hreserved
  · exact absurd hsub hunhandled
  · exact hr
  · exact absurd hsub (hnone nib n hentry)

theorem eq_append_iff_toNat : sub = type ++ nib ↔ sub.toNat = 16 * type.toNat + nib.toNat := by
  rw [← BitVec.toNat_inj, toNat_append_eq_add]
  rfl

/-- The detail of `SubtypeMismatch` is `{type, sub}` (60_exceptions.md R262). -/
theorem append_setWidth_eq_ofNat : (type ++ sub).setWidth 32 = BitVec.ofNat 32 (64 * type.toNat + sub.toNat) := by
  rw [← BitVec.ofNat_toNat, toNat_append_eq_add]
  rfl

theorem type_ne_three_of_table {tab : List TableEntry}
    (htab : (type, tab) ∈ [((0 : BitVec 2), p.tabM), (1, p.tabC), (2, p.tabD)]) : type ≠ 3 := by
  simp only [List.mem_cons, Prod.mk.injEq, List.not_mem_nil, or_false] at htab
  obtain ⟨rfl, -⟩ | ⟨rfl, -⟩ | ⟨rfl, -⟩ := htab <;> decide

/-- A named entry of a type's table stands in that table. -/
theorem tableEntry_eq_named_iff {tab : List TableEntry}
    (htab : (type, tab) ∈ [((0 : BitVec 2), p.tabM), (1, p.tabC), (2, p.tabD)]) :
    tableEntry p (frameTypeOf type) nib = .named n ↔ tab[nib.toNat]? = some (.named n) := by
  refine ⟨fun h => ?_, tableEntry_of_getElem? htab⟩
  cases hentry : tab[nib.toNat]? with
  | some e => rw [← h, tableEntry_of_getElem? htab hentry]
  | none =>
    simp only [List.mem_cons, Prod.mk.injEq, List.not_mem_nil, or_false] at htab
    obtain ⟨rfl, rfl⟩ | ⟨rfl, rfl⟩ | ⟨rfl, rfl⟩ := htab <;> simp [tableEntry, frameTypeOf, hentry] at h

end

/-! ## Frame Control (R102, R103) -/

theorem fcUnpack_fcOut {p : Params} {fc : FrameControl} {nib : BitVec 4}
    (h : subEncode p fc.type fc.sub = .ok nib) : fcUnpack p (fcOut nib fc) = fc := by
  obtain ⟨hsub, n, hentry⟩ := subEncode_eq_ok_iff.1 h
  obtain ⟨hver, htype, hnib⟩ := fcOctet_fields nib fc.type fc.ver
  have hfirst : byteAt (fcOut nib fc) 0 = (nib ++ fc.type ++ fc.ver : BitVec (4 + 2 + 2)) := rfl
  rw [fcUnpack, hfirst, hver, htype, hnib, subDecode_named hentry, ← hsub]
  rfl

/-- `SubDecode` gives the code of a name only at its own nibble. -/
theorem eq_of_subDecode_eq_append {p : Params} {type : BitVec 2} {nib nib' : BitVec 4}
    (htype : frameTypeOf type ≠ .unknown) (h : subDecode p type nib = type ++ nib') : nib = nib' := by
  obtain ⟨hreserved, hunhandled⟩ := append_ne_sentinel type nib' (mt (frameTypeOf_unknown_iff type).2 htype)
  obtain ⟨_, -, hcode⟩ | ⟨-, hcode⟩ | ⟨-, hcode⟩ := subDecode_cases p type nib
  · have hnibbles := congrArg (BitVec.extractLsb' 0 4) (hcode.symm.trans h)
    rwa [nibble_append, nibble_append] at hnibbles
  · exact absurd (h.symm.trans hcode) hreserved
  · exact absurd (h.symm.trans hcode) hunhandled

/-- What two octets decode to encodes to them, where it encodes at all. -/
theorem fcOut_fcUnpack {p : Params} {b0 b1 : Byte} {nib : BitVec 4}
    (h : subEncode p (fcUnpack p [b0, b1]).type (fcUnpack p [b0, b1]).sub = .ok nib) :
    fcOut nib (fcUnpack p [b0, b1]) = [b0, b1] := by
  obtain ⟨hsub, n, hentry⟩ := subEncode_eq_ok_iff.1 h
  have hcode : subDecode p (b0.extractLsb' 2 2) (b0.extractLsb' 4 4) = b0.extractLsb' 2 2 ++ nib := hsub
  have hsame := eq_of_subDecode_eq_append (tableEntry_named_type hentry) hcode
  have hoctet := fcOctet_of_fields b0
  rw [hsame] at hoctet
  exact congrArg (fun b => [b, b1]) hoctet

/-! ## Sequence Control (41_primitive_codecs.md R131, R132) -/

theorem scUnpack_scPack (sc : SeqControl) : scUnpack (scPack sc) = sc := by
  have hfrag : (sc.seq.extractLsb' 0 4 ++ sc.frag).extractLsb' 0 4 = sc.frag := BitVec.extractLsb'_append_eq_right
  have hlow : (sc.seq.extractLsb' 0 4 ++ sc.frag).extractLsb' 4 4 = sc.seq.extractLsb' 0 4 :=
    BitVec.extractLsb'_append_eq_left
  rw [scPack, scUnpack_bytes, hfrag, hlow]
  exact congrArg (SeqControl.mk sc.frag) (extractLsb'_append_self (m := 8) (n := 4) sc.seq)

theorem scPack_scUnpack (b0 b1 : Byte) : scPack (scUnpack [b0, b1]) = [b0, b1] := by
  have hlow : (b1 ++ b0.extractLsb' 4 4).extractLsb' 0 4 = b0.extractLsb' 4 4 := BitVec.extractLsb'_append_eq_right
  have hhigh : (b1 ++ b0.extractLsb' 4 4).extractLsb' 4 8 = b1 := BitVec.extractLsb'_append_eq_left
  have hoctet : b0.extractLsb' 4 4 ++ b0.extractLsb' 0 4 = b0 := extractLsb'_append_self (m := 4) (n := 4) b0
  rw [scUnpack_bytes, scPack, hlow, hhigh, hoctet]

end Sys2Proof.Machine

namespace Sys2Proof.Proofs

open Sys2Proof.Machine Sys2Proof.Spec

/-- Settles O29: a name of the type's table is found at its nibble, and every other code fails one of the checks. -/
theorem subEncodeChecksInOrder : Obligations.SubEncodeChecksInOrder := by
  intro p type sub
  refine ⟨subEncode_unknown, ?_, ?_, fun tab htab => ⟨fun nib n hentry hsub => ?_, fun hres hunh hnone => ?_⟩⟩
  · rintro htype rfl
    exact subEncode_reserved htype
  · rintro htype rfl
    exact subEncode_unhandled htype
  · rw [eq_append_iff_toNat.2 hsub]
    exact subEncode_named ((tableEntry_eq_named_iff htab).2 hentry)
  · rw [← append_setWidth_eq_ofNat]
    exact subEncode_mismatch (type_ne_three_of_table htab) hres hunh fun nib n hentry hsub =>
      hnone nib n ((tableEntry_eq_named_iff htab).1 hentry) (eq_append_iff_toNat.1 hsub)

/-- Settles O30: a named nibble is what `SubEncode` gives back, so the two octets hold all the fields. -/
theorem frameControlDecodeInvertsEncode : Obligations.FrameControlDecodeInvertsEncode := by
  intro p ver type nib flags n hentry
  have hok : subEncode p type (subDecode p type nib) = .ok nib := by
    rw [subDecode_named hentry]
    exact subEncode_named hentry
  exact ⟨_, fcPack_ok hok, rfl, fcUnpack_fcOut hok⟩

/-- Settles O31: the entry that the octets select decides what `SubEncode` makes of what `SubDecode` gave. -/
theorem frameControlEncodeInvertsDecode : Obligations.FrameControlEncodeInvertsDecode := by
  intro p b0 b1
  split
  · next htype => exact fcPack_error (subEncode_unknown htype)
  · next htype =>
    split
    · next n hentry =>
      have hok : subEncode p (fcUnpack p [b0, b1]).type (fcUnpack p [b0, b1]).sub = .ok (b0.extractLsb' 4 4) :=
        (congrArg (subEncode p _) (subDecode_named hentry)).trans (subEncode_named hentry)
      rw [fcPack_ok hok, fcOut_fcUnpack hok]
    · next hentry =>
      exact fcPack_error ((congrArg (subEncode p _) (subDecode_reserved hentry)).trans (subEncode_reserved htype))
    · next hentry =>
      exact fcPack_error ((congrArg (subEncode p _) (subDecode_unhandled hentry)).trans (subEncode_unhandled htype))

/-- Settles O36: the four low bits of the sequence number and the fragment number share the first octet. -/
theorem sequenceControlLaws : Obligations.SequenceControlLaws :=
  ⟨fun sc => ⟨rfl, scUnpack_scPack sc⟩, scPack_scUnpack⟩

end Sys2Proof.Proofs
end

section
/-! Header round trips (43_header_assemblers.md R209): a header as the bytes of its fields, the fields of those bytes,
and what the decoders see of a header that stands at `ICUR`, the Frame Control first. -/

namespace Sys2Proof.Machine

open Sys2Proof.Spec

/-! ## Slices (00_scope.md R10) -/

theorem slice_length {b : List Byte} {lo hi : Nat} (h : hi ≤ b.length) : (slice b lo hi).length = hi - lo := by
  rw [slice, List.length_take, List.length_drop]
  omega

theorem slice_append_slice (b : List Byte) {lo mid hi : Nat} (hlo : lo ≤ mid) (hhi : mid ≤ hi) :
    slice b lo mid ++ slice b mid hi = slice b lo hi := by
  have hsplit : hi - lo = (mid - lo) + (hi - mid) := by omega
  have hdrop : b.drop mid = (b.drop lo).drop (mid - lo) := by rw [List.drop_drop, Nat.add_sub_of_le hlo]
  rw [slice, slice, slice, hsplit, hdrop, List.take_add]

theorem slice_zero_length (b : List Byte) : slice b 0 b.length = b := List.take_length

/-! ## Fields and their bytes -/

theorem le16_bytesLe16 (v : BitVec 16) : le16 (bytesLe16 v) = v := extractLsb'_append_self (m := 8) (n := 8) v

theorem bytesLe16_le16 {b : List Byte} (h : b.length = 2) : bytesLe16 (le16 b) = b := by
  obtain ⟨b0, b1, rfl⟩ := List.length_eq_two.1 h
  have hlow : (b1 ++ b0).extractLsb' 0 8 = b0 := BitVec.extractLsb'_append_eq_right
  have hhigh : (b1 ++ b0).extractLsb' 8 8 = b1 := BitVec.extractLsb'_append_eq_left
  exact congrArg₂ (fun x y => [x, y]) hlow hhigh

theorem bytes_macOf {b : List Byte} (h : b.length = 6) : (macOf b).bytes = b := by
  match b, h with
  | [_, _, _, _, _, _], _ => rfl

theorem scPack_scUnpack_of_length {b : List Byte} (h : b.length = 2) : scPack (scUnpack b) = b := by
  obtain ⟨b0, b1, rfl⟩ := List.length_eq_two.1 h
  exact scPack_scUnpack b0 b1

/-! ## A header and its bytes (R200, R201) -/

/-- The fields of the common bytes, whatever follows them. -/
theorem commonFields_commonBytes (s : State) (rest : List Byte) (h : Header) :
    commonFields (commonBytes s ++ rest) h =
      { h with dur := s.hd.dur, a1 := s.hd.a1, a2 := s.hd.a2, a3 := s.hd.a3 } := by
  have hdur : le16 (slice (commonBytes s ++ rest) 0 2) = s.hd.dur := le16_bytesLe16 s.hd.dur
  rw [commonFields, hdur]
  rfl

theorem scUnpack_commonBytes (s : State) (rest : List Byte) :
    scUnpack (slice (commonBytes s ++ rest) 20 22) = s.sc := scUnpack_scPack s.sc

theorem macOf_optionalBytes {s : State} (h : s.hd.a4p = 1) :
    macOf (slice (commonBytes s ++ optionalBytes s.hd) 22 28) = s.hd.a4 := by
  rw [optionalBytes, if_pos h]
  rfl

/-- QoS control follows Address4 where that is present, and the common bytes where it is not. -/
theorem le16_optionalBytes {s : State} {q : Nat} (h : s.hd.qosp = 1) (hq : 22 + 6 * s.hd.a4p.toNat = q) :
    le16 (slice (commonBytes s ++ optionalBytes s.hd) q (q + 2)) = s.hd.qos := by
  subst hq
  rw [optionalBytes, if_pos h]
  obtain ha | ha := BitVec.eq_zero_or_eq_one s.hd.a4p <;> rw [ha] <;> exact le16_bytesLe16 s.hd.qos

/-- The optional fields of the bytes of `s`, for the presence bits of `s`. -/
theorem optionalFields_optionalBytes {s : State} {h : Header} (ha4p : h.a4p = s.hd.a4p) (hqosp : h.qosp = s.hd.qosp) :
    optionalFields (commonBytes s ++ optionalBytes s.hd) h =
      { h with
        a4 := if s.hd.a4p = 1 then s.hd.a4 else h.a4
        qos := if s.hd.qosp = 1 then s.hd.qos else h.qos } := by
  rw [optionalFields, ha4p, hqosp, ite_congr rfl macOf_optionalBytes fun _ => rfl,
    ite_congr rfl (fun hp => le16_optionalBytes hp rfl) fun _ => rfl]

/-- The fields of the bytes of `s`, for the presence bits of `s`. -/
theorem headerFields_headerBytes {s : State} {h : Header} (ha4p : h.a4p = s.hd.a4p) (hqosp : h.qosp = s.hd.qosp) :
    optionalFields (commonBytes s ++ optionalBytes s.hd) (commonFields (commonBytes s ++ optionalBytes s.hd) h) =
      { h with
        dur := s.hd.dur, a1 := s.hd.a1, a2 := s.hd.a2, a3 := s.hd.a3
        a4 := if s.hd.a4p = 1 then s.hd.a4 else h.a4
        qos := if s.hd.qosp = 1 then s.hd.qos else h.qos } := by
  rw [commonFields_commonBytes]
  exact optionalFields_optionalBytes ha4p hqosp

/-- The common bytes of the fields of `b`. -/
theorem commonBytes_of_fields {x : State} {h : Header} {b : List Byte} (hlength : 22 ≤ b.length)
    (hhd : { x.hd with qos := h.qos, a4p := h.a4p, qosp := h.qosp, a4 := h.a4 } = commonFields b h)
    (hsc : x.sc = scUnpack (slice b 20 22)) : commonBytes x = slice b 0 22 := by
  have hdur : x.hd.dur = le16 (slice b 0 2) := (congrArg Header.dur hhd :)
  have ha1 : x.hd.a1 = macOf (slice b 2 8) := (congrArg Header.a1 hhd :)
  have ha2 : x.hd.a2 = macOf (slice b 8 14) := (congrArg Header.a2 hhd :)
  have ha3 : x.hd.a3 = macOf (slice b 14 20) := (congrArg Header.a3 hhd :)
  have hwidth (lo hi : Nat) (hhi : hi ≤ 22) : (slice b lo hi).length = hi - lo := slice_length (hhi.trans hlength)
  rw [commonBytes, hdur, ha1, ha2, ha3, hsc, bytesLe16_le16 (hwidth 0 2 (by decide)),
    bytes_macOf (hwidth 2 8 (by decide)), bytes_macOf (hwidth 8 14 (by decide)),
    bytes_macOf (hwidth 14 20 (by decide)), scPack_scUnpack_of_length (hwidth 20 22 (by decide)),
    slice_append_slice b (by decide) (by decide), slice_append_slice b (by decide) (by decide),
    slice_append_slice b (by decide) (by decide), slice_append_slice b (by decide) (by decide)]

/-- The optional bytes of the optional fields of `b`. -/
theorem optionalBytes_optionalFields {b : List Byte} {h : Header} (hlength : 22 + optionalLength h ≤ b.length) :
    optionalBytes (optionalFields b h) = slice b 22 (22 + optionalLength h) := by
  rw [optionalLength] at hlength ⊢
  have hempty (lo : Nat) : slice b lo lo = [] := by simp [slice]
  have ha4 : (if h.a4p = 1 then (optionalFields b h).a4.bytes else []) = slice b 22 (22 + 6 * h.a4p.toNat) := by
    obtain hp | hp := BitVec.eq_zero_or_eq_one h.a4p <;> simp only [optionalFields, hp]
    · exact (hempty 22).symm
    · exact bytes_macOf (slice_length (by rw [hp] at hlength; simp at hlength; omega))
  have hqos : (if h.qosp = 1 then bytesLe16 (optionalFields b h).qos else []) =
      slice b (22 + 6 * h.a4p.toNat) (22 + 6 * h.a4p.toNat + 2 * h.qosp.toNat) := by
    obtain hp | hp := BitVec.eq_zero_or_eq_one h.qosp <;> simp only [optionalFields, hp]
    · exact (hempty _).symm
    · refine bytesLe16_le16 ((slice_length ?_).trans (Nat.add_sub_cancel_left _ 2))
      rw [hp] at hlength
      simp at hlength
      omega
  have hbytes : optionalBytes (optionalFields b h) = (if h.a4p = 1 then (optionalFields b h).a4.bytes else []) ++
      (if h.qosp = 1 then bytesLe16 (optionalFields b h).qos else []) := rfl
  rw [hbytes, ha4, hqos, slice_append_slice b (by omega) (by omega), Nat.add_assoc]

/-! ## What the decoders see -/

theorem State.memRead_append (s : State) (a m n : Nat) :
    s.memRead a (m + n) = s.memRead a m ++ s.memRead (a + m) n := by
  simp [State.memRead, List.range_add, Nat.add_assoc]

theorem State.memRead_eq_of_forall {s : State} {a : Nat} {out : List Byte}
    (h : ∀ i, (hi : i < out.length) → s.ibufByte (a + i) = out[i]) : s.memRead a out.length = out := by
  refine List.ext_getElem (s.memRead_length a _) fun i _ hi => ?_
  rw [← h i hi]
  simp [State.memRead]

/-- FCDEC where two bytes are there. -/
def State.afterFcdec (s : State) : State :=
  ((s.putFc (fcUnpack s.params (s.memRead s.icur.toNat 2))).advanceIcur 2).finished

section
variable {s : State} (h : 2 ≤ s.avail)
include h

theorem exec_fcdec_enough : exec .fcdec s = .next s.afterFcdec :=
  decodeAtIcur_enough 2 (fun b s => s.putFc (fcUnpack s.params b)) s h

theorem afterFcdec_icur : s.afterFcdec.icur.toNat = s.icur.toNat + 2 := toNat_cursor_add h

theorem afterFcdec_avail : s.afterFcdec.avail = s.avail - 2 := by
  rw [State.avail, afterFcdec_icur h, ← Nat.sub_sub]
  rfl

theorem afterFcdec_memRead_icur (n : Nat) :
    s.afterFcdec.memRead s.afterFcdec.icur.toNat n = s.memRead (s.icur.toNat + 2) n := by
  rw [afterFcdec_icur h]
  rfl

end

/-- MHDEC where the 22 bytes are `b` (R204). -/
def State.afterMhdec (s : State) (b : List Byte) : State :=
  (((s.putHd { commonFields b s.hd with a4p := 0, qosp := 0 }).putSc
    (scUnpack (slice b 20 22))).advanceIcur 22).finished

section
variable (s : State) (b : List Byte)

theorem afterMhdec_code : code (s.afterMhdec b) = 0 := State.code_finished _

theorem afterMhdec_params : (s.afterMhdec b).params = s.params := rfl

theorem afterMhdec_fc : (s.afterMhdec b).fc = s.fc := rfl

theorem afterMhdec_sc : (s.afterMhdec b).sc = scUnpack (slice b 20 22) := rfl

theorem afterMhdec_hd : (s.afterMhdec b).hd = { commonFields b s.hd with a4p := 0, qosp := 0 } := rfl

end

theorem exec_mhdec_enough {s : State} {b : List Byte} (hb : s.memRead s.icur.toNat 22 = b) (h : 22 ≤ s.avail) :
    exec .mhdec s = .next (s.afterMhdec b) := by
  subst hb
  exact decodeAtIcur_enough 22 (fun b s =>
    (s.putHd { commonFields b s.hd with a4p := 0, qosp := 0 }).putSc (scUnpack (slice b 20 22))) s h

/-- DHDEC where the bytes it reads are `b` (R207). -/
def State.afterDhdec (s : State) (b : List Byte) : State :=
  (((s.putHd (optionalFields b (commonFields b s.hd))).putSc (scUnpack (slice b 20 22))).advanceIcur
    (22 + optionalLength s.hd)).finished

section
variable (s : State) (b : List Byte)

theorem afterDhdec_code : code (s.afterDhdec b) = 0 := State.code_finished _

theorem afterDhdec_params : (s.afterDhdec b).params = s.params := rfl

theorem afterDhdec_fc : (s.afterDhdec b).fc = s.fc := rfl

theorem afterDhdec_sc : (s.afterDhdec b).sc = scUnpack (slice b 20 22) := rfl

theorem afterDhdec_hd : (s.afterDhdec b).hd = optionalFields b (commonFields b s.hd) := rfl

end

theorem exec_dhdec_enough {s : State} {b : List Byte} (hb : s.memRead s.icur.toNat (22 + optionalLength s.hd) = b)
    (h : 22 + optionalLength s.hd ≤ s.avail) : exec .dhdec s = .next (s.afterDhdec b) := by
  subst hb
  exact decodeAtIcur_enough (22 + optionalLength s.hd) (fun b s =>
    (s.putHd (optionalFields b (commonFields b s.hd))).putSc (scUnpack (slice b 20 22))) s h

/-- The presence bits as DHCTX derives them (R206). -/
def State.afterDhctx (s : State) : State :=
  (s.putHd { s.hd with a4p := a4pOf s.fc, qosp := qospOf s.params s.fc }).finished

theorem afterDhctx_params (s : State) : s.afterDhctx.params = s.params := rfl

theorem afterDhctx_fc (s : State) : s.afterDhctx.fc = s.fc := rfl

theorem exec_dhctx_eq (s : State) : exec .dhctx s = .next s.afterDhctx := rfl

/-! ## Decoding a header that was encoded -/

/-- A state that holds at `ICUR` the bytes another one wrote at `OCUR`. -/
theorem memRead_icur_of_emitted {s u : State} {out : List Byte} {n : Nat} (hlength : out.length = n)
    (h : ∀ i, i < n → inAt u i = (s.emit out).finished.obufByte (s.ocur.toNat + i)) :
    u.memRead u.icur.toNat n = out := by
  rw [← hlength]
  exact State.memRead_eq_of_forall fun i hi => (h i (hlength ▸ hi)).trans (s.emit_obufByte_inside out i hi)

/-- FCDEC gives the Frame Control of a header and leaves the cursor at the bytes after it. -/
theorem afterFcdec_of_header {u : State} {fc : FrameControl} {nib : BitVec 4} {rest : List Byte} {n : Nat}
    (hnib : subEncode u.params fc.type fc.sub = .ok nib) (henough : 2 ≤ u.avail)
    (hheader : u.memRead u.icur.toNat (2 + n) = fcOut nib fc ++ rest) :
    u.afterFcdec.fc = fc ∧ u.afterFcdec.memRead u.afterFcdec.icur.toNat n = rest := by
  rw [State.memRead_append] at hheader
  obtain ⟨hfirst, hrest⟩ := List.append_inj hheader (u.memRead_length _ 2)
  have hfc : u.afterFcdec.fc = fcUnpack u.params (u.memRead u.icur.toNat 2) := rfl
  rw [hfc, hfirst, fcUnpack_fcOut hnib, afterFcdec_memRead_icur henough]
  exact ⟨rfl, hrest⟩

/-! ## Encoding a header that was decoded -/

/-- The Frame Control that FCDEC took encodes to the two bytes it took it from. -/
theorem fcOut_afterFcdec {u : State} {nib : BitVec 4}
    (hnib : subEncode u.afterFcdec.params u.afterFcdec.fc.type u.afterFcdec.fc.sub = .ok nib) :
    fcOut nib u.afterFcdec.fc = u.memRead u.icur.toNat 2 :=
  fcOut_fcUnpack hnib

/-- A state that writes at `OCUR` the bytes another one holds at `ICUR`. -/
theorem obufByte_of_copied {u w : State} {out : List Byte} {n : Nat} (hout : out = u.memRead u.icur.toNat n) :
    ∀ i, i < n → (w.emit out).finished.obufByte (w.ocur.toNat + i) = inAt u i := by
  intro i hi
  subst hout
  rw [State.finished_obufByte, State.emit_obufByte_inside w _ i (by rwa [State.memRead_length])]
  simp [State.memRead, inAt]

theorem exec_mhenc_eq (s : State) : exec .mhenc s = encodeAfterFc (commonBytes s) s := rfl

theorem exec_dhenc_eq (s : State) : exec .dhenc s = encodeAfterFc (commonBytes s ++ optionalBytes s.hd) s := rfl

/-- An operation that encodes a Frame Control and then `rest`, which are the bytes another state holds at `ICUR`. -/
theorem encodeAfterFc_copies {u x : State} {rest : List Byte} {nib : BitVec 4} {n : Nat} {answer : Result}
    (hanswer : answer = encodeAfterFc rest x) (hnib : subEncode x.params x.fc.type x.fc.sub = .ok nib)
    (hout : fcOut nib x.fc ++ rest = u.memRead u.icur.toNat n) (hroom : n ≤ x.room) :
    ∃ y, answer = .next y ∧ code y = 0 ∧ ∀ i, i < n → y.obufByte (x.ocur.toNat + i) = inAt u i := by
  have hfits : (fcOut nib x.fc ++ rest).length ≤ x.room := by rwa [hout, State.memRead_length]
  have hrun := (encodeAfterFc_ok rest (fcPack_ok hnib)).trans (encodeAtOcur_fits _ x hfits)
  exact ⟨_, hanswer.trans hrun, State.code_finished _, obufByte_of_copied hout⟩

/-! ## Management headers -/

theorem mhdec_of_mhenc {s t u : State} (hrun : exec .mhenc s = .next t) (hok : code t = 0)
    (hparams : u.params = s.params) (havail : 24 ≤ u.avail)
    (hbytes : ∀ i, i < 24 → inAt u i = t.obufByte (s.ocur.toNat + i)) :
    ∃ v w, exec .fcdec u = .next v ∧ exec .mhdec v = .next w ∧ code w = 0 ∧
      w.fc = s.fc ∧ w.sc = s.sc ∧ w.hd.dur = s.hd.dur ∧ w.hd.a1 = s.hd.a1 ∧ w.hd.a2 = s.hd.a2 ∧ w.hd.a3 = s.hd.a3 := by
  have hfirst : 2 ≤ u.avail := by omega
  obtain ⟨_, hs, rfl⟩ := exec_performs_ok hrun hok
  cases hs with
  | raised hc => exact absurd rfl hc
  | @mhenc nib hnib hfits =>
    rw [← hparams] at hnib
    obtain ⟨hfc, hrest⟩ := afterFcdec_of_header (n := 22) hnib hfirst (memRead_icur_of_emitted rfl hbytes)
    have hmhdec := exec_mhdec_enough hrest (by rw [afterFcdec_avail hfirst]; omega)
    have hhd := commonFields_commonBytes s [] u.afterFcdec.hd
    have hsc := scUnpack_commonBytes s []
    rw [List.append_nil] at hhd hsc
    refine ⟨_, _, exec_fcdec_enough hfirst, hmhdec, afterMhdec_code _ _, ?_⟩
    rw [afterMhdec_fc, hfc, afterMhdec_sc, hsc, afterMhdec_hd, hhd]
    exact ⟨rfl, rfl, rfl, rfl, rfl, rfl⟩

theorem mhenc_of_mhdec {u v w : State} {nib : BitVec 4} (havail : 24 ≤ u.avail) (hfcdec : exec .fcdec u = .next v)
    (hmhdec : exec .mhdec v = .next w) (hroom : 24 ≤ w.room)
    (hnib : subEncode w.params w.fc.type w.fc.sub = .ok nib) :
    ∃ x, exec .mhenc w = .next x ∧ code x = 0 ∧ ∀ i, i < 24 → x.obufByte (w.ocur.toNat + i) = inAt u i := by
  have hfirst : 2 ≤ u.avail := by omega
  obtain rfl := Host.Outcome.next.inj ((exec_fcdec_enough hfirst).symm.trans hfcdec)
  generalize hb : u.memRead (u.icur.toNat + 2) 22 = b
  have hlength : b.length = 22 := by rw [← hb, State.memRead_length]
  have hrest := (afterFcdec_memRead_icur hfirst 22).trans hb
  have henough : 22 ≤ u.afterFcdec.avail := by rw [afterFcdec_avail hfirst]; omega
  obtain rfl := Host.Outcome.next.inj ((exec_mhdec_enough hrest henough).symm.trans hmhdec)
  have hcommon : commonBytes (u.afterFcdec.afterMhdec b) = slice b 0 22 :=
    commonBytes_of_fields (h := u.afterFcdec.hd) hlength.ge rfl rfl
  have hfc := hnib
  rw [afterMhdec_params, afterMhdec_fc] at hfc
  refine encodeAfterFc_copies (x := u.afterFcdec.afterMhdec b) (exec_mhenc_eq _) hnib ?_ hroom
  rw [afterMhdec_fc, fcOut_afterFcdec hfc, hcommon, ← hlength, slice_zero_length, u.memRead_append _ 2 22, hb]

/-! ## Data headers -/

theorem dhdec_of_dhenc {s c t u : State} (hdhctx : exec .dhctx s = .next c) (hbits : c.hd = s.hd)
    (hrun : exec .dhenc s = .next t) (hok : code t = 0) (hparams : u.params = s.params)
    (havail : 24 + optionalLength s.hd ≤ u.avail)
    (hbytes : ∀ i, i < 24 + optionalLength s.hd → inAt u i = t.obufByte (s.ocur.toNat + i)) :
    ∃ v w x, exec .fcdec u = .next v ∧ exec .dhctx v = .next w ∧ exec .dhdec w = .next x ∧ code x = 0 ∧
      x.fc = s.fc ∧ x.sc = s.sc ∧ x.hd.dur = s.hd.dur ∧ x.hd.a1 = s.hd.a1 ∧ x.hd.a2 = s.hd.a2 ∧ x.hd.a3 = s.hd.a3 ∧
      x.hd.a4p = s.hd.a4p ∧ x.hd.qosp = s.hd.qosp ∧
      (s.hd.a4p = 1 → x.hd.a4 = s.hd.a4) ∧ (s.hd.qosp = 1 → x.hd.qos = s.hd.qos) := by
  have hfirst : 2 ≤ u.avail := by omega
  cases (exec_dhctx_eq s).symm.trans hdhctx
  obtain ⟨_, hs, rfl⟩ := exec_performs_ok hrun hok
  cases hs with
  | raised hc => exact absurd rfl hc
  | @dhenc nib hnib hfits =>
    rw [← hparams] at hnib
    have hlength : (fcOut nib s.fc ++ (commonBytes s ++ optionalBytes s.hd)).length = 24 + optionalLength s.hd := by
      rw [List.length_append, List.length_append, commonBytes_length, optionalBytes_length]
      exact (Nat.add_assoc 2 22 _).symm
    have hheader := memRead_icur_of_emitted hlength hbytes
    rw [show 24 + optionalLength s.hd = 2 + (22 + optionalLength s.hd) from Nat.add_assoc 2 22 _] at hheader
    obtain ⟨hfc, hrest⟩ := afterFcdec_of_header hnib hfirst hheader
    have ha4p : u.afterFcdec.afterDhctx.hd.a4p = s.hd.a4p :=
      (congrArg a4pOf hfc).trans (congrArg Header.a4p hbits)
    have hqosp : u.afterFcdec.afterDhctx.hd.qosp = s.hd.qosp :=
      (congrArg₂ qospOf hparams hfc).trans (congrArg Header.qosp hbits)
    have hoptional : optionalLength u.afterFcdec.afterDhctx.hd = optionalLength s.hd := by
      rw [optionalLength, ha4p, hqosp, optionalLength]
    have henough : 22 + optionalLength u.afterFcdec.afterDhctx.hd ≤ u.afterFcdec.avail := by
      rw [hoptional, afterFcdec_avail hfirst]
      omega
    rw [← hoptional] at hrest
    have hdhdec := exec_dhdec_enough (s := u.afterFcdec.afterDhctx) hrest henough
    refine ⟨_, _, _, exec_fcdec_enough hfirst, exec_dhctx_eq _, hdhdec, afterDhdec_code _ _, ?_⟩
    rw [afterDhdec_fc, afterDhdec_sc, scUnpack_commonBytes, afterDhdec_hd, headerFields_headerBytes ha4p hqosp]
    exact ⟨hfc, rfl, rfl, rfl, rfl, rfl, ha4p, hqosp, fun hp => if_pos hp, fun hp => if_pos hp⟩

theorem dhenc_of_dhdec {u v w x : State} {nib : BitVec 4} (hfcdec : exec .fcdec u = .next v)
    (hdhctx : exec .dhctx v = .next w) (hdhdec : exec .dhdec w = .next x)
    (havail : 24 + optionalLength w.hd ≤ u.avail) (hroom : 24 + optionalLength w.hd ≤ x.room)
    (hnib : subEncode x.params x.fc.type x.fc.sub = .ok nib) :
    ∃ y, exec .dhenc x = .next y ∧ code y = 0 ∧
      ∀ i, i < 24 + optionalLength w.hd → y.obufByte (x.ocur.toNat + i) = inAt u i := by
  have hfirst : 2 ≤ u.avail := by omega
  obtain rfl := Host.Outcome.next.inj ((exec_fcdec_enough hfirst).symm.trans hfcdec)
  obtain rfl := Host.Outcome.next.inj ((exec_dhctx_eq _).symm.trans hdhctx)
  generalize hb : u.memRead (u.icur.toNat + 2) (22 + optionalLength u.afterFcdec.afterDhctx.hd) = b
  have hlength : 22 + optionalLength u.afterFcdec.afterDhctx.hd = b.length := by rw [← hb, State.memRead_length]
  have hrest := (afterFcdec_memRead_icur hfirst _).trans hb
  have henough : 22 + optionalLength u.afterFcdec.afterDhctx.hd ≤ u.afterFcdec.avail := by
    rw [afterFcdec_avail hfirst]
    omega
  have hrun := exec_dhdec_enough (s := u.afterFcdec.afterDhctx) hrest henough
  obtain rfl := Host.Outcome.next.inj (hrun.symm.trans hdhdec)
  have hcommon : commonBytes (u.afterFcdec.afterDhctx.afterDhdec b) = slice b 0 22 :=
    commonBytes_of_fields (h := u.afterFcdec.afterDhctx.hd) (by omega) rfl rfl
  have hoptional : optionalBytes (u.afterFcdec.afterDhctx.afterDhdec b).hd = slice b 22 b.length := by
    rw [← hlength]
    exact optionalBytes_optionalFields (h := commonFields b u.afterFcdec.afterDhctx.hd) hlength.le
  have hfc := hnib
  rw [afterDhdec_params, afterDhctx_params, afterDhdec_fc, afterDhctx_fc] at hfc
  have htotal : 24 + optionalLength u.afterFcdec.afterDhctx.hd =
      2 + (22 + optionalLength u.afterFcdec.afterDhctx.hd) := by omega
  refine encodeAfterFc_copies (x := u.afterFcdec.afterDhctx.afterDhdec b) (exec_dhenc_eq _) hnib ?_ hroom
  rw [afterDhdec_fc, afterDhctx_fc, fcOut_afterFcdec hfc, hcommon, hoptional,
    slice_append_slice b (by decide) (by omega), slice_zero_length, htotal, u.memRead_append _ 2, hb]

end Sys2Proof.Machine

namespace Sys2Proof.Proofs

open Sys2Proof.Machine Sys2Proof.Spec

/-- Settles O56: the Frame Control and the 22 bytes after it are each inverse to their decoders. -/
theorem managementHeaderRoundTrip : Obligations.ManagementHeaderRoundTrip :=
  ⟨fun _ _ _ => mhdec_of_mhenc, fun _ _ _ _ => mhenc_of_mhdec⟩

/-- Settles O57: as for the Management header, with the optional fields that the presence bits select after the common
ones; DHCTX derives the same bits from the Frame Control that came back. -/
theorem dataHeaderRoundTrip : Obligations.DataHeaderRoundTrip := by
  simp only [Obligations.DataHeaderRoundTrip, Nat.add_assoc 24]
  exact ⟨fun _ _ _ _ => dhdec_of_dhenc, fun _ _ _ _ _ => dhenc_of_dhdec⟩

end Sys2Proof.Proofs
end

section
/-! Station Info, parsing and serializing against each other (42_tlv_station_info.md R168, R172, R178): what a TLVDEC
that ends OK has parsed, the elements that the bytes of elements determine, and the StationInfo that a StationInfo's own
elements give. -/

namespace Sys2Proof.Machine

open Sys2Proof.Spec

/-! ## What TLVDEC's loop has parsed (R166, R168) -/

/-- A tag, a length byte and as many payload bytes are an element. -/
theorem cons_cons_eq_elementBytes (tag n : Byte) {pay : List Byte} (h : pay.length = n.toNat) :
    tag :: n :: pay = elementBytes ⟨tag, pay⟩ := by
  rw [elementBytes, h, BitVec.ofNat_toNat, BitVec.setWidth_eq]

/-- The loop ends OK after whole elements, on a short tail. -/
theorem parseElements_eq_ok {tailMin : Nat} (hmin : 2 ≤ tailMin) {text : List Byte → List Byte} {turns : Nat}
    {rest tail : List Byte} {si si' : StationInfo} (hturns : rest.length ≤ turns)
    (h : parseElements tailMin text turns rest si = .ok (si', tail)) :
    ∃ es, rest = flat es ++ tail ∧ (∀ e ∈ es, e.pay.length ≤ 255) ∧ tail.length < tailMin ∧
      si' = es.foldl (fun si e => addElement text si e.tag e.pay) si := by
  induction turns generalizing rest si with
  | zero =>
    cases h
    exact ⟨[], rfl, List.forall_mem_nil _, by omega, rfl⟩
  | succ turns ih =>
    rw [parseElements_succ] at h
    split at h
    · next hshort =>
      cases h
      exact ⟨[], rfl, List.forall_mem_nil _, hshort, rfl⟩
    · next hlong =>
      match rest with
      | [] | [_] => simp at hlong; omega
      | tag :: n :: body =>
        simp only at h
        split at h
        · cases h
        · next hwhole =>
          have hbody : (body.drop n.toNat).length ≤ turns := by simp at hturns ⊢; omega
          have htake : (body.take n.toNat).length = n.toNat := by simp; omega
          obtain ⟨es, hrest, hlen, htail, hsi⟩ := ih hbody h
          refine ⟨⟨tag, body.take n.toNat⟩ :: es, ?_, ?_, htail, hsi⟩
          · rw [flat_cons, ← cons_cons_eq_elementBytes tag n htake, List.append_assoc, ← hrest]
            simp
          · exact List.forall_mem_cons.2 ⟨htake.trans_le (Nat.lt_succ_iff.1 n.isLt), hlen⟩

theorem parsedSlice_eq_ok {s : State} (hmin : 2 ≤ s.params.tlvTailMin) {si : StationInfo} {tail : List Byte}
    (h : s.parsedSlice = .ok (si, tail)) :
    ∃ es, input s = flat es ++ tail ∧ (∀ e ∈ es, e.pay.length ≤ 255) ∧ tail.length < s.params.tlvTailMin ∧
      si = stationInfoOf s.params es := by
  rw [State.parsedSlice, memRead_icur_avail] at h
  obtain ⟨es, hinput, hlen, htail, hsi⟩ := parseElements_eq_ok hmin (input_length s).le h
  exact ⟨es, hinput, hlen, htail, hsi.trans (foldl_addElement s.params es)⟩

/-- What is consumed of a slice of elements and a tail are the elements. -/
theorem avail_sub_tail {s : State} {es : List Element} {tail : List Byte} (h : input s = flat es ++ tail) :
    s.avail - tail.length = (flat es).length := by
  rw [← input_length, h, List.length_append, Nat.add_sub_cancel]

theorem flat_length_le_avail {s : State} {es : List Element} {tail : List Byte} (h : input s = flat es ++ tail) :
    (flat es).length ≤ s.avail := by
  rw [← input_length, h, List.length_append]
  exact Nat.le_add_right _ _

theorem flat_length (es : List Element) : (flat es).length = (es.map fun e => 2 + e.pay.length).sum := by
  induction es with
  | nil => rfl
  | cons e es ih => simp [ih, Nat.add_comm]

/-- Every element has its entry, or is an SSID or SupportedRates element (R178). -/
theorem data_length_add (p : Params) (es : List Element) :
    (stationInfoOf p es).data.length + (es.filter fun e => e.tag = 0 ∨ e.tag = 1).length = es.length := by
  have hsplit := es.length_eq_length_filter_add fun e => decide (e.tag ≠ 0 ∧ e.tag ≠ 1)
  have hnot : (es.filter fun e => !decide (e.tag ≠ 0 ∧ e.tag ≠ 1)) = es.filter fun e => e.tag = 0 ∨ e.tag = 1 :=
    List.filter_congr fun e _ => by simp
  rw [hnot] at hsplit
  exact hsplit.symm

theorem avail_lt (s : State) : s.avail < 65536 := (Nat.sub_le _ _).trans_lt s.ilen.isLt

theorem room_lt (s : State) : s.room < 65536 := (Nat.sub_le _ _).trans_lt s.ocap.isLt

/-- `RES` holds the length of what fits a buffer. -/
theorem toNat_ofNat_length {n m : Nat} (h : n ≤ m) (hm : m < 65536) : (BitVec.ofNat 32 n).toNat = n := by
  rw [BitVec.toNat_ofNat]
  omega

/-! ## Elements and their bytes (R160) -/

theorem elementBytes_append_inj {e e' : Element} {rest rest' : List Byte} (he : e.pay.length ≤ 255)
    (he' : e'.pay.length ≤ 255) (h : elementBytes e ++ rest = elementBytes e' ++ rest') : e = e' ∧ rest = rest' := by
  obtain ⟨tag, pay⟩ := e
  obtain ⟨tag', pay'⟩ := e'
  simp only [elementBytes, List.cons_append, List.cons.injEq] at h he he'
  obtain ⟨rfl, hlength, happend⟩ := h
  have hsame : pay.length = pay'.length := by
    have hmod := congrArg BitVec.toNat hlength
    simp only [BitVec.toNat_ofNat] at hmod
    omega
  obtain ⟨rfl, hrest⟩ := List.append_inj happend hsame
  exact ⟨rfl, hrest⟩

/-- No two sequences of elements have the same bytes, as a length byte says how long its payload is. -/
theorem flat_injective {es es' : List Element} (hes : ∀ e ∈ es, e.pay.length ≤ 255)
    (hes' : ∀ e ∈ es', e.pay.length ≤ 255) (h : flat es = flat es') : es = es' := by
  induction es generalizing es' with
  | nil =>
    cases es' with
    | nil => rfl
    | cons e' es' => simp [flat, wire] at h
  | cons e es ih =>
    cases es' with
    | nil => simp [flat, wire] at h
    | cons e' es' =>
      obtain ⟨he, htail⟩ := List.forall_mem_cons.1 hes
      obtain ⟨he', htail'⟩ := List.forall_mem_cons.1 hes'
      rw [flat_cons, flat_cons] at h
      obtain ⟨rfl, hrest⟩ := elementBytes_append_inj he he' h
      rw [ih htail htail' hrest]

/-! ## The elements of a StationInfo (R170) -/

section
variable {si : StationInfo} (hdata : ∀ e ∈ si.data, e.tag ≠ 0 ∧ e.tag ≠ 1)
include hdata

theorem filter_tag_zero_emission :
    (emission si).filter (fun e => e.tag = 0) = if si.ssidp = 1 then [⟨0, si.ssid⟩] else [] := by
  have hothers : ∀ e ∈ si.data, ¬ e.tag = 0 := fun e he => (hdata e he).1
  by_cases hs : si.ssidp = 1#1 <;> by_cases hr : si.rates = [] <;> simpa [emission, hs, hr] using hothers

theorem filter_tag_one_emission :
    (emission si).filter (fun e => e.tag = 1) = if si.rates = [] then [] else [⟨1, si.rates⟩] := by
  have hothers : ∀ e ∈ si.data, ¬ e.tag = 1 := fun e he => (hdata e he).2
  by_cases hs : si.ssidp = 1#1 <;> by_cases hr : si.rates = [] <;> simpa [emission, hs, hr] using hothers

theorem filter_others_emission : (emission si).filter (fun e => e.tag ≠ 0 ∧ e.tag ≠ 1) = si.data := by
  have hothers : ∀ e ∈ si.data, ¬ e.tag = 0 ∧ ¬ e.tag = 1 := hdata
  by_cases hs : si.ssidp = 1#1 <;> by_cases hr : si.rates = [] <;> simpa [emission, hs, hr] using hothers

/-- The StationInfo of a StationInfo's own elements: the SSID alone may come back other than it was (R172). -/
theorem stationInfoOf_emission (p : Params) :
    stationInfoOf p (emission si) =
      { si with ssid := if si.ssidp = 1 then utf8 (textDecode p si.ssid) else [] } := by
  have hzero : lastPayload 0 (emission si) = if si.ssidp = 1 then some si.ssid else none := by
    rw [lastPayload, filter_tag_zero_emission hdata]
    split <;> rfl
  have hone : (lastPayload 1 (emission si)).getD [] = si.rates := by
    rw [lastPayload, filter_tag_one_emission hdata]
    split
    · next hempty => exact hempty.symm
    · rfl
  rw [stationInfoOf, hzero, hone, filter_others_emission hdata]
  obtain hs | hs := BitVec.eq_zero_or_eq_one si.ssidp <;> rw [hs] <;> rfl

end

/-- The StationInfos that come back from their own elements (R172). -/
structure ComesBack (p : Params) (si : StationInfo) : Prop where
  data_tags : ∀ e ∈ si.data, e.tag ≠ 0 ∧ e.tag ≠ 1
  ssid_present : si.ssidp = 1 → utf8 (textDecode p si.ssid) = si.ssid
  ssid_absent : si.ssidp = 0 → si.ssid = []

theorem ComesBack.stationInfoOf_emission {p : Params} {si : StationInfo} (h : ComesBack p si) :
    stationInfoOf p (emission si) = si := by
  rw [Machine.stationInfoOf_emission h.data_tags]
  obtain (hs : si.ssidp = 0) | (hs : si.ssidp = 1) := BitVec.eq_zero_or_eq_one si.ssidp
  · rw [if_neg (by rw [hs]; decide), ← h.ssid_absent hs]
  · rw [if_pos hs, h.ssid_present hs]

/-- The elements of R172's domain are those of a StationInfo that comes back. -/
theorem roundTrips_iff {p : Params} {es : List Element} :
    roundTrips p es ↔ ∃ si, ComesBack p si ∧ emission si = es := by
  constructor
  · rintro ⟨ssid, rates, others, rfl, hssid, hrates, hothers⟩
    obtain ⟨r, hr⟩ : ∃ r, rates = if r = [] then [] else [⟨1, r⟩] := by
      obtain rfl | ⟨pay, rfl, hne⟩ := hrates
      · exact ⟨[], rfl⟩
      · exact ⟨pay, (if_neg hne).symm⟩
    obtain rfl | ⟨pay, rfl, htext⟩ := hssid
    · exact ⟨⟨0, [], r, others⟩, ⟨hothers, nofun, fun _ => rfl⟩, by rw [hr]; rfl⟩
    · exact ⟨⟨1, pay, r, others⟩, ⟨hothers, fun _ => htext, nofun⟩, by rw [hr]; rfl⟩
  · rintro ⟨si, hsi, rfl⟩
    refine ⟨_, _, _, rfl, ?_, ?_, hsi.data_tags⟩
    · split
      · next hs => exact .inr ⟨_, rfl, hsi.ssid_present hs⟩
      · exact .inl rfl
    · split
      · exact .inl rfl
      · next hne => exact .inr ⟨_, rfl, hne⟩

/-- The StationInfo of any elements comes back when it emits them again. -/
theorem comesBack_of_emission_stationInfoOf {p : Params} {es : List Element}
    (h : emission (stationInfoOf p es) = es) : ComesBack p (stationInfoOf p es) := by
  have hdata : ∀ e ∈ (stationInfoOf p es).data, e.tag ≠ 0 ∧ e.tag ≠ 1 := fun e he =>
    of_decide_eq_true (List.mem_filter.1 he).2
  have hssid : (if (stationInfoOf p es).ssidp = 1 then utf8 (textDecode p (stationInfoOf p es).ssid) else []) =
      (stationInfoOf p es).ssid := by
    have hsame := stationInfoOf_emission hdata p
    rw [h] at hsame
    exact (congrArg StationInfo.ssid hsame).symm
  refine ⟨hdata, fun hs => ?_, fun hs => ?_⟩
  · rwa [if_pos hs] at hssid
  · rw [hs] at hssid
    exact hssid.symm

/-- Elements come back exactly on R172's domain. -/
theorem emission_stationInfoOf_iff {p : Params} {es : List Element} :
    emission (stationInfoOf p es) = es ↔ roundTrips p es := by
  rw [roundTrips_iff]
  constructor
  · exact fun h => ⟨_, comesBack_of_emission_stationInfoOf h, h⟩
  · rintro ⟨si, hsi, rfl⟩
    rw [hsi.stationInfoOf_emission]

/-! ## TLVENC that ends OK (R170) -/

theorem firstTooLong_eq_none_iff {i : Nat} {es : List Element} :
    firstTooLong i es = none ↔ ∀ e ∈ es, e.pay.length ≤ 255 := by
  refine ⟨fun h => ?_, firstTooLong_eq_none i⟩
  induction es generalizing i with
  | nil => exact List.forall_mem_nil _
  | cons e es ih =>
    rw [firstTooLong] at h
    split at h
    · cases h
    · next hle => exact List.forall_mem_cons.2 ⟨Nat.not_lt.1 hle, ih h⟩

/-- TLVENC where everything fits. -/
def State.afterTlvenc (s : State) : State :=
  ((s.putRes (BitVec.ofNat 32 (flat (emission s.si)).length)).emit (flat (emission s.si))).finished

theorem exec_tlvenc_fits {s : State} (hlen : ∀ e ∈ emission s.si, e.pay.length ≤ 255)
    (hroom : (flat (emission s.si)).length ≤ s.room) : exec .tlvenc s = .next s.afterTlvenc := by
  rw [← emittedElements_eq_emission] at hlen
  have hout : (emittedElements s.si).flatMap elementBytes = flat (emission s.si) := by
    rw [emittedElements_eq_emission]
    rfl
  exact execTlvenc_fits (firstTooLong_eq_none_iff.2 hlen) hout (Nat.not_lt.2 hroom)

theorem tlvenc_ok {s t : State} (h : exec .tlvenc s = .next t) (hok : code t = 0) :
    (∀ e ∈ emission s.si, e.pay.length ≤ 255) ∧ (flat (emission s.si)).length ≤ s.room ∧ t = s.afterTlvenc := by
  obtain ⟨_, hs, rfl⟩ := exec_performs_ok h hok
  cases hs with
  | raised hc => exact absurd rfl hc
  | tlvenc hlen hout hfits =>
    rw [emittedElements_eq_emission] at hlen hout
    subst hout
    exact ⟨firstTooLong_eq_none_iff.1 hlen, hfits, rfl⟩

theorem afterTlvenc_obufByte (s : State) (i : Nat) (hi : i < (flat (emission s.si)).length) :
    s.afterTlvenc.obufByte (s.ocur.toNat + i) = (flat (emission s.si))[i] :=
  (s.putRes _).emit_obufByte_inside _ i hi

theorem afterTlvenc_res_toNat {s : State} (hroom : (flat (emission s.si)).length ≤ s.room) :
    s.afterTlvenc.res.toNat = (flat (emission s.si)).length := toNat_ofNat_length hroom (room_lt s)

/-- The bytes of the elements stand at the input cursor. -/
theorem inAt_eq_flat {s : State} {es : List Element} {tail : List Byte} (h : input s = flat es ++ tail) (i : Nat)
    (hi : i < (flat es).length) : inAt s i = (flat es)[i] := by
  have hmem : i < (input s).length := by rw [h, List.length_append]; omega
  have hinput : inAt s i = (input s)[i] := by simp [input, inAt]
  rw [hinput, List.getElem_of_eq h hmem, List.getElem_append_left hi]

end Sys2Proof.Machine

namespace Sys2Proof.Proofs

open Sys2Proof.Machine Sys2Proof.Spec

/-- Settles O43: the loop that ends OK has parsed whole elements, and these are what is consumed. -/
theorem tlvdecConsumesWholeElements : Obligations.TlvdecConsumesWholeElements := by
  intro s t hmin hrun hok
  obtain ⟨_, hs, rfl⟩ := exec_performs_ok hrun hok
  cases hs with
  | raised hc => exact absurd rfl hc
  | @tlvdec si tail hparsed =>
    obtain ⟨es, hinput, hlen, htail, rfl⟩ := parsedSlice_eq_ok hmin hparsed
    have hle := flat_length_le_avail hinput
    have hres : (BitVec.ofNat 32 (s.avail - tail.length)).toNat = (flat es).length := by
      rw [avail_sub_tail hinput]
      exact toNat_ofNat_length hle (avail_lt s)
    have hicur : (s.icur + BitVec.ofNat 16 (s.avail - tail.length)).toNat = s.icur.toNat + (flat es).length := by
      rw [avail_sub_tail hinput]
      exact toNat_cursor_add hle
    refine ⟨es, tail, hinput, htail, hlen, hres.trans (flat_length es), ?_, data_length_add s.params es⟩
    exact hicur.trans (congrArg (s.icur.toNat + ·) hres.symm)

/-- Settles O45: TLVENC writes the consumed bytes exactly when it emits the elements that were parsed, as no other
elements have these bytes. -/
theorem tlvParseThenSerialize : Obligations.TlvParseThenSerialize := by
  intro s t u es tail hparses hrun hsi hroom
  cases (tlvdecParsesElements s es tail hparses).symm.trans hrun
  obtain ⟨hinput, hlen, -⟩ := hparses
  have hres : (BitVec.ofNat 32 (flat es).length).toNat = (flat es).length :=
    toNat_ofNat_length (flat_length_le_avail hinput) (avail_lt s)
  have hsi' : u.si = stationInfoOf s.params es := hsi
  rw [← emission_stationInfoOf_iff, ← hsi']
  constructor
  · rintro ⟨v, htlvenc, hok, hsame, hbytes⟩
    obtain ⟨hlen', -, rfl⟩ := tlvenc_ok htlvenc hok
    have hlength : (flat (emission u.si)).length = (flat es).length :=
      (afterTlvenc_res_toNat hroom).symm.trans ((congrArg BitVec.toNat hsame).trans hres)
    refine flat_injective hlen' hlen (List.ext_getElem hlength fun i hi hi' => ?_)
    rw [← afterTlvenc_obufByte u i hi, ← inAt_eq_flat hinput i hi']
    exact hbytes i (hi'.trans_eq hres.symm)
  · intro hes
    rw [← hes] at hlen hinput hres ⊢
    refine ⟨_, exec_tlvenc_fits hlen hroom, State.code_finished _, rfl, fun i hi => ?_⟩
    have hi' := hi.trans_eq hres
    rw [afterTlvenc_obufByte u i hi', inAt_eq_flat hinput i hi']

/-- Settles O46: the bytes are those of the elements emitted, TLVDEC parses them as these, and the SI group is one that
its own elements give back. -/
theorem tlvSerializeThenParse : Obligations.TlvSerializeThenParse := by
  intro s t u hmin hrun hok hparams hbytes hlast hdata hpresent habsent
  obtain ⟨hlen, hroom, rfl⟩ := tlvenc_ok hrun hok
  rw [afterTlvenc_res_toNat hroom] at hbytes
  have hinput : input u = flat (emission s.si) := by
    rw [hbytes]
    refine List.ext_getElem (by simp) fun i _ hi => ?_
    rw [List.getElem_map, List.getElem_range, afterTlvenc_obufByte s i hi]
  rw [← hparams] at hmin hlast hpresent
  have hparses : parsesAs u (emission s.si) [] :=
    ⟨by rw [hinput, List.append_nil], hlen, Nat.lt_of_lt_of_le Nat.zero_lt_two hmin, hlast⟩
  have hcomesBack : ComesBack u.params s.si := ⟨hdata, hpresent, habsent⟩
  exact ⟨_, tlvdecParsesElements u _ _ hparses, State.code_finished _, hcomesBack.stationInfoOf_emission⟩

end Sys2Proof.Proofs
end

section
/-! The constraints on `TEXT_DECODE` (42_tlv_station_info.md R163): the default decoder of R164 gives scalar values
other than NUL, one for each lead byte, and places its placeholders where the payload has NUL bytes. -/

namespace Sys2Proof.Machine

/-! ## The scalar values of the default decoder (R163 constraint 1) -/

/-- One turn of the inner loop of R164: a byte within the bounds is taken; without one the sequence is ill-formed. -/
theorem takeContinuations_cases (need : Nat) (lo hi : Byte) (cp : Scalar) (rest : List Byte) :
    takeContinuations (need + 1) lo hi cp rest = (replacementChar, rest) ∨
      ∃ b rest', rest = b :: rest' ∧ lo ≤ b ∧ b ≤ hi ∧
        takeContinuations (need + 1) lo hi cp rest =
          takeContinuations need 0x80 0xBF ((cp <<< 6) ||| (b &&& 0x3F).setWidth 21) rest' := by
  cases rest with
  | nil => exact .inl rfl
  | cons b rest' =>
    rw [takeContinuations]
    split
    · exact .inl rfl
    · next hin =>
      obtain ⟨hlo, hhi⟩ := not_or.1 hin
      exact .inr ⟨b, rest', rfl, BitVec.not_lt.1 hlo, BitVec.not_lt.1 hhi, rfl⟩

theorem continuation_bits_toNat {b : Byte} (hlo : 0x80 ≤ b) (hhi : b ≤ 0xBF) :
    ((b &&& 0x3F).setWidth 21 : Scalar).toNat = b.toNat - 0x80 := by
  revert b; decide

/-- A continuation byte adds its six bits below those of the bytes before. -/
theorem toNat_addContinuation {cp : Scalar} {b : Byte} (hcp : (cp.toNat + 1) * 64 ≤ 2 ^ 21) (hlo : 0x80 ≤ b)
    (hhi : b ≤ 0xBF) :
    ((cp <<< 6) ||| (b &&& 0x3F).setWidth 21).toNat = cp.toNat * 64 + (b.toNat - 0x80) := by
  have hmax : b.toNat ≤ 0xBF := hhi
  rw [BitVec.toNat_or, continuation_bits_toNat hlo hhi, BitVec.toNat_shiftLeft,
    Nat.mod_eq_of_lt (by rw [Nat.shiftLeft_eq]; omega), ← Nat.shiftLeft_add_eq_or_of_lt (by omega), Nat.shiftLeft_eq]

/-- `c` replaces an ill-formed sequence, or lies from `least` up to before `beyond`. -/
def ReplacedOrWithin (least beyond : Nat) (c : Scalar) : Prop :=
  c = replacementChar ∨ (least ≤ c.toNat ∧ c.toNat < beyond)

theorem ReplacedOrWithin.mono {least beyond least' beyond' : Nat} {c : Scalar} (h : ReplacedOrWithin least beyond c)
    (hleast : least' ≤ least) (hbeyond : beyond ≤ beyond') : ReplacedOrWithin least' beyond' c :=
  h.imp_right fun ⟨hlo, hhi⟩ => ⟨hleast.trans hlo, hhi.trans_le hbeyond⟩

/-- The first continuation byte bounds the scalar value, where the bytes after it fill the bits below. -/
theorem takeContinuations_succ_within {need : Nat} {lo hi : Byte} {cp : Scalar} {rest : List Byte} (hlo : 0x80 ≤ lo)
    (hhi : hi ≤ 0xBF) (hcp : (cp.toNat + 1) * 64 ^ (need + 1) ≤ 2 ^ 21)
    (hfill : ∀ (c : Scalar) (rest : List Byte), (c.toNat + 1) * 64 ^ need ≤ 2 ^ 21 →
      ReplacedOrWithin (c.toNat * 64 ^ need) ((c.toNat + 1) * 64 ^ need) (takeContinuations need 0x80 0xBF c rest).1) :
    ReplacedOrWithin ((cp.toNat * 64 + (lo.toNat - 0x80)) * 64 ^ need)
      ((cp.toNat * 64 + (hi.toNat - 0x80) + 1) * 64 ^ need) (takeContinuations (need + 1) lo hi cp rest).1 := by
  obtain hreplaced | ⟨b, rest', -, hblo, hbhi, htake⟩ := takeContinuations_cases need lo hi cp rest
  · exact .inl (by rw [hreplaced])
  · have hpos : 0 < 64 ^ need := by positivity
    rw [pow_succ', ← Nat.mul_assoc] at hcp
    have hsmall : (cp.toNat + 1) * 64 ≤ 2 ^ 21 := (Nat.le_mul_of_pos_right _ hpos).trans hcp
    have hbits := toNat_addContinuation hsmall (BitVec.le_trans hlo hblo) (BitVec.le_trans hbhi hhi)
    have hlo' : lo.toNat ≤ b.toNat := hblo
    have hhi' : b.toNat ≤ hi.toNat := hbhi
    have hmax : hi.toNat ≤ 0xBF := hhi
    have hwithin := hfill _ rest' ((Nat.mul_le_mul_right (64 ^ need) (by rw [hbits]; omega)).trans hcp)
    rw [htake]
    rw [hbits] at hwithin
    exact hwithin.mono (Nat.mul_le_mul_right _ (by omega)) (Nat.mul_le_mul_right _ (by omega))

/-- Continuation bytes fill the bits below `cp`. -/
theorem takeContinuations_within (need : Nat) (cp : Scalar) (rest : List Byte)
    (hcp : (cp.toNat + 1) * 64 ^ need ≤ 2 ^ 21) :
    ReplacedOrWithin (cp.toNat * 64 ^ need) ((cp.toNat + 1) * 64 ^ need)
      (takeContinuations need 0x80 0xBF cp rest).1 := by
  induction need generalizing cp rest with
  | zero => exact .inr (by simp [takeContinuations])
  | succ need ih =>
    have hsucc := takeContinuations_succ_within (lo := 0x80) (hi := 0xBF) (rest := rest) (BitVec.le_refl _)
      (BitVec.le_refl _) hcp ih
    rw [pow_succ', ← Nat.mul_assoc, ← Nat.mul_assoc]
    exact hsucc.mono (Nat.mul_le_mul_right _ (Nat.le_add_right _ _)) (Nat.mul_le_mul_right _ (Nat.succ_mul _ 64).ge)

/-- What a lead byte announces leads to scalar values only, and not to NUL. -/
def announcesScalars : Nat × Byte × Byte × Scalar → Bool
  | (0, _, _, _) => false
  | (need + 1, lo, hi, cp) =>
    let least := (cp.toNat * 64 + (lo.toNat - 0x80)) * 64 ^ need
    let beyond := (cp.toNat * 64 + (hi.toNat - 0x80) + 1) * 64 ^ need
    0x80 ≤ lo ∧ hi ≤ 0xBF ∧ (cp.toNat + 1) * 64 ^ (need + 1) ≤ 2 ^ 21 ∧ 0 < least ∧
      (beyond ≤ 0xD800 ∨ (0xE000 ≤ least ∧ beyond ≤ 0x110000))

theorem leadByte_announcesScalars (b : Byte) : (leadByte b).all announcesScalars = true := by
  revert b; decide

/-- A text's element (R163 constraint 1). -/
def IsTextScalar (c : Scalar) : Prop := isScalarValue c ∧ c ≠ 0

theorem replacementChar_isTextScalar : IsTextScalar replacementChar := by
  unfold IsTextScalar; decide

theorem takeContinuations_isTextScalar {need : Nat} {lo hi : Byte} {cp : Scalar}
    (h : announcesScalars (need, lo, hi, cp) = true) (rest : List Byte) :
    IsTextScalar (takeContinuations need lo hi cp rest).1 := by
  cases need with
  | zero => cases h
  | succ need =>
    obtain ⟨hlo, hhi, hcp, hpos, hscalar⟩ := of_decide_eq_true h
    obtain hreplaced | ⟨hleast, hbeyond⟩ :=
      takeContinuations_succ_within (rest := rest) hlo hhi hcp (takeContinuations_within need)
    · rw [hreplaced]
      exact replacementChar_isTextScalar
    · constructor
      · exact hscalar.imp (fun hbelow => Nat.lt_succ_iff.1 (hbeyond.trans_le hbelow))
          fun h => ⟨h.1.trans hleast, Nat.lt_succ_iff.1 (hbeyond.trans_le h.2)⟩
      · intro hzero
        rw [hzero] at hleast
        exact absurd (hpos.trans_le hleast) (Nat.lt_irrefl 0)

theorem ascii_isTextScalar {b : Byte} (hnul : b ≠ 0) (hascii : b ≤ 0x7F) : IsTextScalar (b.setWidth 21) := by
  unfold IsTextScalar; revert b; decide

/-- One turn of the loop of R164 appends a scalar value other than NUL. -/
theorem decodeOne_isTextScalar {nul : Scalar} (hplaceholder : IsTextScalar nul) (b : Byte) (rest : List Byte) :
    IsTextScalar (decodeOne nul b rest).1 := by
  unfold decodeOne
  split
  · exact hplaceholder
  · next hnul =>
    split
    · next hascii => exact ascii_isTextScalar hnul hascii
    · split
      · exact replacementChar_isTextScalar
      · next need lo hi cp hlead =>
        have hannounces := leadByte_announcesScalars b
        rw [hlead] at hannounces
        exact takeContinuations_isTextScalar hannounces rest

theorem decodeTurns_isTextScalar {nul : Scalar} (hplaceholder : IsTextScalar nul) (turns : Nat) (p : List Byte) :
    ∀ c ∈ decodeTurns nul turns p, IsTextScalar c := by
  induction turns generalizing p with
  | zero => exact List.forall_mem_nil _
  | succ turns ih =>
    cases p with
    | nil => exact List.forall_mem_nil _
    | cons b rest => exact List.forall_mem_cons.2 ⟨decodeOne_isTextScalar hplaceholder b rest, ih _⟩

/-! ## The bytes that one turn consumes (R163 constraints 3 and 4) -/

/-- The bytes consumed as continuation bytes hold no NUL. -/
theorem takeContinuations_consumes {need : Nat} {lo hi : Byte} (hlo : 0 < lo) (cp : Scalar) (rest : List Byte) :
    ∃ taken : List Byte, (∀ b ∈ taken, b ≠ 0) ∧ rest = taken ++ (takeContinuations need lo hi cp rest).2 := by
  induction need generalizing lo hi cp rest with
  | zero => exact ⟨[], List.forall_mem_nil _, rfl⟩
  | succ need ih =>
    obtain hreplaced | ⟨b, rest', rfl, hblo, -, htake⟩ := takeContinuations_cases need lo hi cp rest
    · exact ⟨[], List.forall_mem_nil _, by rw [hreplaced]; rfl⟩
    · have hb : b ≠ 0 := by
        rintro rfl
        exact absurd (Nat.lt_of_lt_of_le hlo hblo) (Nat.lt_irrefl 0)
      obtain ⟨taken, htaken, hrest⟩ := ih (lo := 0x80) (hi := 0xBF) (by decide)
        ((cp <<< 6) ||| (b &&& 0x3F).setWidth 21) rest'
      exact ⟨b :: taken, List.forall_mem_cons.2 ⟨hb, htaken⟩, by rw [htake, List.cons_append, ← hrest]⟩

theorem leadByte_lo_pos (b : Byte) : (leadByte b).all (fun lead => 0 < lead.2.1) = true := by
  revert b; decide

/-- A turn that begins with another byte than NUL consumes no NUL. -/
theorem decodeOne_consumes (nul : Scalar) {b : Byte} (hb : b ≠ 0) (rest : List Byte) :
    ∃ taken : List Byte, (∀ c ∈ taken, c ≠ 0) ∧ rest = taken ++ (decodeOne nul b rest).2 := by
  rw [decodeOne, if_neg hb]
  split
  · exact ⟨[], List.forall_mem_nil _, rfl⟩
  · split
    · exact ⟨[], List.forall_mem_nil _, rfl⟩
    · next need lo hi cp hlead =>
      have hpos := leadByte_lo_pos b
      rw [hlead] at hpos
      exact takeContinuations_consumes (of_decide_eq_true hpos) cp rest

/-! ## Where the placeholders stand (R163 constraints 3 and 4; log entry 9) -/

theorem nulAligned_cons_nul {nul : Scalar} {budget i : Nat} {p : List Byte} {t : List Scalar} (hi : i ≤ budget)
    (hplace : t[i]? = some nul) (hrest : nulAligned nul 0 p (t.drop (i + 1)) = true) :
    nulAligned nul budget (0 :: p) t = true := by
  rw [nulAligned, if_pos rfl, List.any_eq_true]
  exact ⟨i, List.mem_range.2 (Nat.lt_succ_iff.2 hi), by simp [hplace, hrest]⟩

/-- Bytes other than NUL add to the budget. -/
theorem nulAligned_append {nul : Scalar} {taken : List Byte} (htaken : ∀ b ∈ taken, b ≠ 0) (budget : Nat)
    (p : List Byte) (t : List Scalar) :
    nulAligned nul budget (taken ++ p) t = nulAligned nul (budget + taken.length) p t := by
  induction taken generalizing budget with
  | nil => rfl
  | cons b taken ih =>
    rw [List.forall_mem_cons] at htaken
    obtain ⟨hb, htaken⟩ := htaken
    rw [List.cons_append, nulAligned, if_neg hb, ih htaken, List.length_cons, Nat.add_assoc, Nat.add_comm 1]

/-- The default decoder's text, after as many scalar values as the bytes before allow. -/
theorem nulAligned_decodeTurns (nul : Scalar) (turns : Nat) (p : List Byte) (hturns : p.length ≤ turns) (budget : Nat)
    (before : List Scalar) (hbefore : before.length ≤ budget) :
    nulAligned nul budget p (before ++ decodeTurns nul turns p) = true := by
  induction turns generalizing p budget before with
  | zero =>
    obtain rfl := List.length_eq_zero_iff.1 (Nat.le_zero.1 hturns)
    simpa [nulAligned, decodeTurns] using hbefore
  | succ turns ih =>
    cases p with
    | nil => simpa [nulAligned, decodeTurns] using hbefore
    | cons b rest =>
      have hrest : rest.length ≤ turns := Nat.succ_le_succ_iff.1 hturns
      have hdecode : decodeTurns nul (turns + 1) (b :: rest) =
        (decodeOne nul b rest).1 :: decodeTurns nul turns (decodeOne nul b rest).2 := rfl
      rw [hdecode]
      by_cases hb : b = 0
      · subst hb
        have hone : decodeOne nul 0 rest = (nul, rest) := rfl
        rw [hone]
        exact nulAligned_cons_nul hbefore (by simp) (by simpa using ih rest hrest 0 [] le_rfl)
      · obtain ⟨taken, htaken, hsplit⟩ := decodeOne_consumes nul hb rest
        have hlength : rest.length = taken.length + (decodeOne nul b rest).2.length := by
          rw [← List.length_append, ← hsplit]
        have hbytes : b :: rest = (b :: taken) ++ (decodeOne nul b rest).2 := by rw [List.cons_append, ← hsplit]
        rw [hbytes, nulAligned_append (List.forall_mem_cons.2 ⟨hb, htaken⟩), List.append_cons]
        exact ih _ (by omega) _ _ (by simp; omega)

/-- A text that is aligned has at most as many scalar values as the payload has bytes. -/
theorem length_le_of_nulAligned {nul : Scalar} {budget : Nat} {p : List Byte} {t : List Scalar}
    (h : nulAligned nul budget p t = true) : t.length ≤ budget + p.length := by
  induction p generalizing budget t with
  | nil => exact of_decide_eq_true h
  | cons b p ih =>
    rw [nulAligned] at h
    split at h
    · obtain ⟨i, hi, hplace⟩ := List.any_eq_true.1 h
      obtain ⟨-, hrest⟩ := Bool.and_eq_true_iff.1 hplace
      have hbudget := List.mem_range.1 hi
      have hdrop := ih hrest
      rw [List.length_drop] at hdrop
      rw [List.length_cons]
      omega
    · have hrest := ih h
      rw [List.length_cons]
      omega

/-! ## The length of an encoding (R165) -/

theorem utf8One_length_le (c : Scalar) : (utf8One c).length ≤ 4 := by
  unfold utf8One
  split_ifs <;> simp

theorem utf8_length_le (t : List Scalar) : (utf8 t).length ≤ 4 * t.length := by
  induction t with
  | nil => exact le_rfl
  | cons c t ih =>
    have hone := utf8One_length_le c
    rw [utf8, List.flatMap_cons, List.length_append, ← utf8, List.length_cons]
    omega

/-! ## `TEXT_DECODE` of admissible parameters -/

section
variable {p : Params} (hp : p.TextOk) (pay : List Byte)
include hp

theorem textDecode_isTextScalar : ∀ c ∈ textDecode p pay, IsTextScalar c := by
  obtain ⟨hscalar, hnul, hoverrides⟩ := hp
  unfold textDecode
  split
  · next t hlookup =>
    obtain ⟨-, htext, -, -⟩ := hoverrides _ (mem_of_lookup_eq_some hlookup)
    exact htext
  · exact decodeTurns_isTextScalar ⟨hscalar, hnul⟩ _ pay

theorem textDecode_nulAligned : nulAligned p.nulPlaceholder 0 pay (textDecode p pay) = true := by
  obtain ⟨-, -, hoverrides⟩ := hp
  unfold textDecode
  split
  · next t hlookup =>
    obtain ⟨-, -, -, haligned⟩ := hoverrides _ (mem_of_lookup_eq_some hlookup)
    exact haligned
  · exact nulAligned_decodeTurns p.nulPlaceholder _ pay le_rfl 0 [] le_rfl

theorem textDecode_length_le : (textDecode p pay).length ≤ pay.length :=
  (length_le_of_nulAligned (textDecode_nulAligned hp pay)).trans_eq (Nat.zero_add _)

/-- The text of a payload fits `SSID_CAP` (10_state.md R36). -/
theorem ssidText_length_le (hpay : pay.length ≤ 255) : (ssidText p pay).length ≤ ssidCap :=
  (utf8_length_le _).trans (Nat.mul_le_mul_left 4 ((textDecode_length_le hp pay).trans hpay))

end

end Sys2Proof.Machine

namespace Sys2Proof.Proofs

open Sys2Proof.Machine

/-- Settles O47: a payload that the parameters list meets the constraints as they demand it, and on every other one the
default decoder meets them. -/
theorem textDecodeMeetsItsConstraints : Obligations.TextDecodeMeetsItsConstraints :=
  fun _ pay hp hpay => ⟨textDecode_isTextScalar hp pay, textDecode_length_le hp pay, textDecode_nulAligned hp pay,
    ssidText_length_le hp pay hpay⟩

end Sys2Proof.Proofs
end

section
/-! The host's side (10_state.md R21, R22, R27, 70_reset_and_hazards.md R300, R315; 60_exceptions.md R279): the idle
block, host writes of numbers and the hardware reset. -/

namespace Sys2Proof.Machine

open Sys2Proof.Spec

theorem step_of_script_nil {s : State} (h : s.env.script = []) : step s = .next s := by
  obtain ⟨-, hstep⟩ | ⟨a, rest, hcons, -⟩ := step_cases s
  · exact hstep
  · exact absurd (h.symm.trans hcons) nofun

/-- A host write that a register takes. -/
theorem hostWriteReg_of_hostWrite {r : Reg} {v : HostValue} {s t : State} (hr : readOnly r = false)
    (h : s.hostWrite r v = some t) : hostWriteReg r v s = .next t := by
  simp [hostWriteReg, hr, h]

theorem step_of_write {s t : State} {r : Reg} {v : HostValue} {rest : List HostAction} (hr : readOnly r = false)
    (hscript : s.env.script = .write r v :: rest) (h : (s.withScript rest).hostWrite r v = some t) :
    step s = .next t :=
  (step_of_script_cons hscript).trans (hostWriteReg_of_hostWrite hr h)

theorem limited_eq_ite (cap n : Nat) :
    limited cap n = if cap < n then BitVec.ofNat 16 cap else BitVec.ofNat 16 n := by
  rw [limited]
  split
  · next h => rw [Nat.min_eq_right h.le]
  · next h => rw [Nat.min_eq_left (Nat.not_lt.1 h)]

theorem subWritten_eq_ite {p : Params} {n : Nat} (h : n < 64) :
    subWritten p n = if legalSub p (BitVec.ofNat 6 n) then BitVec.ofNat 6 n else 0x3E := by
  simp only [subWritten, h, true_and]
  rfl

theorem resetSub_defaultParams : resetSub defaultParams = 0 := by decide

/-- After a hardware reset no byte of either buffer is listed (R301). -/
theorem hardReset_registersAtReset (s : State) :
    ∃ t, hardReset s = .next t ∧ t.env = { s.env with epoch := s.env.epoch + 1 } ∧ t.params = s.params ∧
      t = registersAtReset (resetSub s.params) t ∧ t.ibuf = [] ∧ t.obuf = [] :=
  ⟨_, rfl, rfl, rfl, rfl, rfl, rfl⟩

end Sys2Proof.Machine

namespace Sys2Proof.Proofs

open Sys2Proof.Machine Sys2Proof.Spec

/-- Settles O6: an empty script holds no action to do. -/
theorem idleBlockHoldsItsState : Obligations.IdleBlockHoldsItsState :=
  fun _ => step_of_script_nil

/-- Settles O7: each write stores what its register makes of the number. -/
theorem hostWritesStoreSubstitutes : Obligations.HostWritesStoreSubstitutes := by
  intro s n rest
  refine ⟨fun _ h => ?_, fun _ h => ?_, fun hn h => ?_, fun h => step_of_write rfl h rfl,
    fun h => step_of_write rfl h rfl, fun h => step_of_write rfl h rfl, fun h => step_of_write rfl h rfl,
    fun h => step_of_script_cons h⟩
  · rw [← limited_eq_ite]
    exact step_of_write rfl h rfl
  · rw [← limited_eq_ite]
    exact step_of_write rfl h rfl
  · rw [← subWritten_eq_ite hn]
    exact step_of_write rfl h rfl

/-- Settles O8: the reset state of the same parameters in a new epoch, whose bytes nothing has written. -/
theorem hardwareResetRestoresRegisters : Obligations.HardwareResetRestoresRegisters := by
  intro s rest h
  obtain ⟨t, hreset, henv, hparams, hregisters, hibuf, hobuf⟩ := hardReset_registersAtReset (s.withScript rest)
  refine ⟨t, _, (step_of_script_cons h).trans hreset, resetSub_resetSubIs s.params, by rw [henv]; rfl, hparams,
    hregisters, by rw [henv]; rfl, fun a => ?_⟩
  rw [State.ibufByte, State.obufByte, hibuf, hobuf]
  exact ⟨rfl, rfl⟩

/-- Settles O9: `FC.SUB` is the one register whose reset value the parameters decide. -/
theorem resetStateHoldsResetValues : Obligations.ResetStateHoldsResetValues := by
  refine ⟨fun p => ⟨resetSub p, resetSub_resetSubIs p, rfl⟩, ?_⟩
  rw [← resetSub_defaultParams]
  rfl

end Sys2Proof.Proofs
end

section
/-! The invariant of the machine (10_state.md sections 2 to 5, 60_exceptions.md section 2): what each part of it asks of
what an operation has made of the state, then of every host action. -/

namespace Sys2Proof.Machine

open Sys2Proof.Spec

/-! ## The legal codes of `FC.SUB` (10_state.md R27, R29) -/

theorem legalSub_reserved (p : Params) : legalSub p subReserved = true := rfl

theorem legalSub_unhandled (p : Params) : legalSub p subUnhandled = true := rfl

theorem legalSub_subDecode (p : Params) (type : BitVec 2) (nib : BitVec 4) :
    legalSub p (subDecode p type nib) = true := by
  obtain ⟨n, hentry, hcode⟩ | ⟨-, hcode⟩ | ⟨-, hcode⟩ := subDecode_cases p type nib
  · rw [hcode, legalSub, (nameOfCode_append p type nib n).2 hentry]
    simp
  · rw [hcode, legalSub_reserved]
  · rw [hcode, legalSub_unhandled]

theorem legalSub_resetSub (p : Params) : legalSub p (resetSub p) = true := by
  rw [resetSub]
  split
  · next h => exact h
  · exact legalSub_reserved p

theorem legalSub_subWritten (p : Params) (n : Nat) : legalSub p (subWritten p n) = true := by
  rw [subWritten]
  split
  · next h => exact h.2
  · exact legalSub_reserved p

/-! ## The SI group of parsed elements (10_state.md R35 to R38) -/

theorem lastPayload_mem {tag : BitVec 8} {es : List Element} {pay : List Byte} (h : lastPayload tag es = some pay) :
    ∃ e ∈ es, e.pay = pay := by
  obtain ⟨e, hlast, hpay⟩ := Option.map_eq_some_iff.1 h
  exact ⟨e, (List.mem_filter.1 (List.mem_of_getLast? hlast)).1, hpay⟩

/-- Each element holds a tag and a length byte and its payload. -/
theorem flat_length_eq_add (es : List Element) : (flat es).length = 2 * es.length + poolBytes es := by
  induction es with
  | nil => rfl
  | cons e es ih => simp [ih, poolBytes]; omega

theorem poolBytes_filter_le (f : Element → Bool) (es : List Element) : poolBytes (es.filter f) ≤ poolBytes es :=
  (List.filter_sublist.map _).sum_le_sum fun _ _ => Nat.zero_le _

/-- What fits `IBUF` gives a StationInfo within its capacities. -/
theorem stationInfoOf_within {p : Params} (htext : p.TextOk) {es : List Element}
    (hlen : ∀ e ∈ es, e.pay.length ≤ 255) (hfits : (flat es).length ≤ p.ibufCap) :
    (stationInfoOf p es).ssid.length ≤ ssidCap ∧ (stationInfoOf p es).rates.length ≤ ratesCap ∧
      (stationInfoOf p es).data.length ≤ dataMax p ∧ poolBytes (stationInfoOf p es).data ≤ poolCap p := by
  have hpayload {tag : BitVec 8} {pay : List Byte} (h : lastPayload tag es = some pay) : pay.length ≤ 255 := by
    obtain ⟨e, he, rfl⟩ := lastPayload_mem h
    exact hlen e he
  rw [flat_length_eq_add] at hfits
  have hcount : (stationInfoOf p es).data.length ≤ es.length := List.length_filter_le _ _
  have hpool : poolBytes (stationInfoOf p es).data ≤ poolBytes es := poolBytes_filter_le _ _
  refine ⟨?_, ?_, ?_, ?_⟩
  · cases hssid : lastPayload 0 es with
    | none => simp only [stationInfoOf, hssid, List.length_nil, Nat.zero_le]
    | some pay =>
      simp only [stationInfoOf, hssid]
      exact ssidText_length_le htext pay (hpayload hssid)
  · cases hrates : lastPayload 1 es with
    | none => simp only [stationInfoOf, hrates, Option.getD_none, List.length_nil, Nat.zero_le]
    | some pay =>
      have hcap : 255 ≤ ratesCap := by decide
      simp only [stationInfoOf, hrates, Option.getD_some]
      exact (hpayload hrates).trans hcap
  · rw [dataMax]
    omega
  · rw [poolCap]
    omega

/-! ## What an operation keeps -/

theorem handlerOf_mem {p : Params} {fc : FrameControl} {v : BitVec 8} (h : handlerOf p fc = some v) :
    v ∈ p.handlers.map Prod.snd := by
  rw [handlerOf] at h
  split at h
  · cases h
  · exact List.mem_map_of_mem (mem_of_lookup_eq_some h)

theorem generatorOf_mem {p : Params} {fvar v : BitVec 8} (h : generatorOf p fvar = some v) :
    v ∈ p.generators.map Prod.snd :=
  List.mem_map_of_mem (mem_of_lookup_eq_some h)

/-- What fits at `OCUR` is written inside the buffer. -/
theorem emit_obuf_ok {s : State} {cap : Nat} {out : List Byte} (hwf : Memory.wf s.obuf)
    (hwithin : Memory.within cap s.obuf) (hcap : s.ocap.toNat ≤ cap) (hfits : out = [] ∨ out.length ≤ s.room) :
    Memory.wf (s.emit out).obuf ∧ Memory.within cap (s.emit out).obuf := by
  by_cases hempty : out = []
  · subst hempty
    exact ⟨hwf, hwithin⟩
  · have hpos : 0 < out.length := List.length_pos_iff.2 hempty
    have hroom : out.length ≤ s.ocap.toNat - s.ocur.toNat := hfits.resolve_left hempty
    exact ⟨Memory.writeAll_wf _ _ _ hwf, Memory.writeAll_within _ _ _ _ hwithin (by omega)⟩

section
variable {s u : State} {i : Instr} {c : Code} (h : Performs s i c u)
include h

theorem Performs.ibuf_eq : u.ibuf = s.ibuf := by cases h <;> rfl

theorem Performs.buffersOk (hs : s.BuffersOk) (hlegal : s.LegalValues) : u.BuffersOk := by
  obtain ⟨hwf, hwithin, howf, howithin⟩ := hs
  obtain ⟨-, hocap, -⟩ := hlegal
  obtain ⟨out, -, hfits, hobuf⟩ := h.stores
  rw [State.BuffersOk, h.params_eq, h.ibuf_eq, hobuf]
  exact ⟨hwf, hwithin, emit_obuf_ok howf howithin hocap hfits⟩

theorem Performs.legalSub (hs : legalSub s.params s.fc.sub = true) : legalSub s.params u.fc.sub = true := by
  cases h with
  | rst => exact legalSub_resetSub s.params
  | fcdec | parse | unselected | stdec => exact legalSub_subDecode s.params _ _
  | _ => exact hs

theorem Performs.legalValues (hs : s.LegalValues) : u.LegalValues := by
  obtain ⟨hilen, hocap, hsub⟩ := hs
  have hsub' := h.legalSub hsub
  rw [← h.params_eq] at hsub' hilen hocap
  by_cases hrst : i = .rst
  · subst hrst
    cases h with
    | raised => exact ⟨hilen, hocap, hsub'⟩
    | rst => exact ⟨Nat.zero_le _, Nat.zero_le _, hsub'⟩
  · obtain ⟨hilen', hocap', -⟩ := h.hostRegisters_eq hrst
    exact ⟨by rwa [hilen'], by rwa [hocap'], hsub'⟩

theorem Performs.stationInfoOk (hadm : s.params.Admissible) (hlegal : s.LegalValues) (hs : s.StationInfoOk) :
    u.StationInfoOk := by
  obtain ⟨⟨-, -, -, -, hmin, -⟩, htext, -⟩ := hadm
  obtain ⟨hilen, -⟩ := hlegal
  cases h with
  | rst => exact ⟨Nat.zero_le _, Nat.zero_le _, Nat.zero_le _, Nat.zero_le _⟩
  | tlvdec hparsed =>
    obtain ⟨es, hinput, hlen, -, rfl⟩ := parsedSlice_eq_ok hmin hparsed
    exact stationInfoOf_within htext hlen
      ((flat_length_le_avail hinput).trans ((Nat.sub_le _ _).trans hilen))
  | _ => exact hs

theorem Performs.hselOk (hs : s.HselOk) : u.HselOk := by
  cases h with
  | rst => exact .inl rfl
  | disp hv | parse _ hv => exact .inr (.inl (handlerOf_mem hv))
  | gsel hv => exact .inr (.inr (generatorOf_mem hv))
  | _ => exact hs

end

/-- The report of every operation is one of R261 and R265. -/
theorem exec_reportOk {i : Instr} {s t : State} (hrun : exec i s = .next t) : t.ReportOk := by
  obtain ⟨-, hcodes⟩ := Proofs.everyCommandEndsInAStatusCode
  obtain ⟨t', hrun', hmax, hne⟩ := hcodes i s
  obtain rfl : t' = t := Host.Outcome.next.inj (hrun'.symm.trans hrun)
  obtain ⟨hok, herror⟩ := Proofs.everyOperationReports i s t' hrun
  exact ⟨hmax, hne, fun h => (hok h).1, herror⟩

theorem exec_keeps_inv {i : Instr} {s t : State} (hs : s.Inv) (hrun : exec i s = .next t) : t.Inv := by
  obtain ⟨hadm, hbuffers, hlegal, hsi, -, hhsel⟩ := hs
  obtain ⟨c, u, hu, ht⟩ := exec_performs hrun
  refine ⟨?_, ?_, ?_, ?_, exec_reportOk hrun, ?_⟩ <;> rw [ht]
  · rwa [← hu.params_eq] at hadm
  · exact hu.buffersOk hbuffers hlegal
  · exact hu.legalValues hlegal
  · exact hu.stationInfoOk hadm hlegal hsi
  · exact hu.hselOk hhsel

/-- A command word, illegal ones among them (30_encoding.md R82). -/
theorem runCommand_keeps_inv {w : CommandWord} {s t : State} (hs : s.Inv) (hrun : runCommand w s = .next t) :
    t.Inv := by
  obtain ⟨i, -, hi⟩ | ⟨e, -, he⟩ := runCommand_cases w s
  · exact exec_keeps_inv hs (hi.symm.trans hrun)
  · obtain rfl := Host.Outcome.next.inj (he.symm.trans hrun)
    obtain ⟨hadm, hbuffers, hlegal, hsi, -, hhsel⟩ := hs
    have hreport : (s.raised (illegalCommand w)).ReportOk := by
      have hcode : statusCode (s.raised (illegalCommand w)).status = 14 := statusCode_statusWord 1 _
      rw [State.ReportOk, hcode]
      exact ⟨by decide, by decide, nofun, fun _ => statusSticky_statusWord 1 _⟩
    exact ⟨hadm, hbuffers, hlegal, hsi, hreport, hhsel⟩

/-! ## What the host keeps (10_state.md R21, R35, R39) -/

theorem limited_le (cap n : Nat) : (limited cap n).toNat ≤ cap := by
  rw [limited, BitVec.toNat_ofNat]
  exact (Nat.mod_le _ _).trans (Nat.min_le_right n cap)

section
variable {s t : State} {r : Reg} (hs : s.Inv)
include hs

/-- The registers in no part of the invariant take any number; the others store a legal one. -/
theorem writeNum_keeps_inv {n : Nat} (h : s.writeNum r n = some t) : t.Inv := by
  obtain ⟨hadm, hbuffers, ⟨hilen, hocap, hsub⟩, hrest⟩ := hs
  cases r with
  | ilen => cases h; exact ⟨hadm, hbuffers, ⟨limited_le _ n, hocap, hsub⟩, hrest⟩
  | ocap => cases h; exact ⟨hadm, hbuffers, ⟨hilen, limited_le _ n, hsub⟩, hrest⟩
  | fcSub => cases h; exact ⟨hadm, hbuffers, ⟨hilen, hocap, legalSub_subWritten s.params n⟩, hrest⟩
  | id | status | errinfo | hsel | res | a1 | a2 | a3 | a4 | siSsid | siRates | siData => cases h
  | _ => cases h; exact ⟨hadm, hbuffers, ⟨hilen, hocap, hsub⟩, hrest⟩

theorem writeBytes_keeps_inv {bs : List Byte} (h : s.writeBytes r bs = some t) : t.Inv := by
  obtain ⟨hadm, hbuffers, hlegal, ⟨hssid, hrates, hdata⟩, hrest⟩ := hs
  cases r with
  | a1 | a2 | a3 | a4 =>
    obtain ⟨-, heq⟩ := Option.ite_none_right_eq_some.1 h
    cases heq
    exact ⟨hadm, hbuffers, hlegal, ⟨hssid, hrates, hdata⟩, hrest⟩
  | siSsid =>
    obtain ⟨hfits, heq⟩ := Option.ite_none_right_eq_some.1 h
    cases heq
    exact ⟨hadm, hbuffers, hlegal, ⟨hfits, hrates, hdata⟩, hrest⟩
  | siRates =>
    obtain ⟨hfits, heq⟩ := Option.ite_none_right_eq_some.1 h
    cases heq
    exact ⟨hadm, hbuffers, hlegal, ⟨hssid, hfits, hdata⟩, hrest⟩
  | _ => cases h

theorem writeElements_keeps_inv {es : List Element} (h : s.writeElements r es = some t) : t.Inv := by
  obtain ⟨hadm, hbuffers, hlegal, ⟨hssid, hrates, -⟩, hrest⟩ := hs
  cases r with
  | siData =>
    obtain ⟨hfits, heq⟩ := Option.ite_none_right_eq_some.1 h
    cases heq
    exact ⟨hadm, hbuffers, hlegal, ⟨hssid, hrates, hfits⟩, hrest⟩
  | _ => cases h

theorem hostWriteReg_keeps_inv {v : HostValue} (h : hostWriteReg r v s = .next t) : t.Inv := by
  rw [hostWriteReg] at h
  split at h
  · cases h
  · split at h
    · next u hu =>
      cases h
      cases v with
      | num n => exact writeNum_keeps_inv hs hu
      | bytes bs => exact writeBytes_keeps_inv hs hu
      | elements es => exact writeElements_keeps_inv hs hu
    · cases h

/-- What the host writes into a buffer stays inside it. -/
theorem hostWriteIbuf_keeps_inv {addr : Nat} {bs : List Byte} (h : hostWriteIbuf addr bs s = .next t) : t.Inv := by
  obtain ⟨hadm, ⟨hwf, hwithin, hobuf⟩, hrest⟩ := hs
  rw [hostWriteIbuf] at h
  split at h
  · next hfits =>
    cases h
    exact ⟨hadm, ⟨Memory.writeAll_wf _ _ _ hwf, Memory.writeAll_within _ _ _ _ hwithin hfits, hobuf⟩, hrest⟩
  · cases h

theorem hostWriteObuf_keeps_inv {addr : Nat} {bs : List Byte} (h : hostWriteObuf addr bs s = .next t) : t.Inv := by
  obtain ⟨hadm, ⟨hwf, hwithin, howf, howithin⟩, hrest⟩ := hs
  rw [hostWriteObuf] at h
  split at h
  · next hfits =>
    cases h
    exact ⟨hadm, ⟨hwf, hwithin, Memory.writeAll_wf _ _ _ howf, Memory.writeAll_within _ _ _ _ howithin hfits⟩, hrest⟩
  · cases h

/-- A host read notes its value and changes no register (log entry 17). -/
theorem hostReadIbuf_keeps_inv {addr n : Nat} (h : hostReadIbuf addr n s = .next t) : t.Inv := by
  rw [hostReadIbuf] at h
  split at h <;> cases h
  exact hs

theorem hostReadObuf_keeps_inv {addr n : Nat} (h : hostReadObuf addr n s = .next t) : t.Inv := by
  rw [hostReadObuf] at h
  split at h <;> cases h
  exact hs

end

/-- Right after reset, in any epoch. -/
theorem resetWith_inv {p : Params} (hp : p.Admissible) (env : Env) :
    ({ State.resetWith p with env := env } : State).Inv := by
  have hcode : statusCode 0 = 0 := by decide
  have hreport : ({ State.resetWith p with env := env } : State).ReportOk :=
    ⟨hcode ▸ by decide, hcode ▸ by decide, fun _ => rfl, fun hne => absurd hcode hne⟩
  exact ⟨hp, ⟨List.Pairwise.nil, List.forall_mem_nil _, List.Pairwise.nil, List.forall_mem_nil _⟩,
    ⟨Nat.zero_le _, Nat.zero_le _, legalSub_resetSub p⟩,
    ⟨Nat.zero_le _, Nat.zero_le _, Nat.zero_le _, Nat.zero_le _⟩, hreport, .inl rfl⟩

theorem runAction_keeps_inv {a : HostAction} {s t : State} (hs : s.Inv) (hrun : runAction a s = .next t) : t.Inv := by
  cases a with
  | command w => exact runCommand_keeps_inv hs hrun
  | write r v => exact hostWriteReg_keeps_inv hs hrun
  | writeIbuf addr bs => exact hostWriteIbuf_keeps_inv hs hrun
  | writeObuf addr bs => exact hostWriteObuf_keeps_inv hs hrun
  | readIbuf addr n => exact hostReadIbuf_keeps_inv hs hrun
  | readObuf addr n => exact hostReadObuf_keeps_inv hs hrun
  | readCmd | read r => cases hrun; exact hs
  | hardReset =>
    obtain ⟨hadm, -⟩ := hs
    cases hrun
    exact resetWith_inv hadm _

/-! ## The default parameters (00_scope.md R8) -/

theorem defaultParams_tablesOk : defaultParams.TablesOk := by decide +kernel

theorem defaultParams_admissible : defaultParams.Admissible := by
  have hrates : defaultParams.RatesOk := by simp [Params.RatesOk, defaultParams, defaultRateTable]
  have hregistries : defaultParams.RegistriesOk := by
    simp [Params.RegistriesOk, defaultParams, defaultHandlers, defaultGenerators, namesIn, defaultTabM]
  exact ⟨by decide, by decide, defaultParams_tablesOk, by decide, hrates, hregistries⟩

end Sys2Proof.Machine

namespace Sys2Proof.Proofs

open Sys2Proof.Machine Sys2Proof.Spec

/-- Settles O14: taking an action from the script changes no register, and every action keeps the invariant. -/
theorem stepKeepsTheInvariant : Obligations.StepKeepsTheInvariant := by
  intro s t hs hstep
  obtain ⟨-, hidle⟩ | ⟨a, rest, -, haction⟩ := step_cases s
  · obtain rfl := Host.Outcome.next.inj (hidle.symm.trans hstep)
    exact hs
  · have hscript : (s.withScript rest).Inv := hs
    exact runAction_keeps_inv hscript (haction.symm.trans hstep)

/-- Settles O15: the default parameters are admissible. -/
theorem resetMeetsTheInvariant : Obligations.ResetMeetsTheInvariant :=
  resetWith_inv defaultParams_admissible _

end Sys2Proof.Proofs
end
